-- ==== Sys2Proof/Word.lean ====
section
/-! DEFINITION. Bit-vectors as spec/00_scope.md rules R10 to R13 and R7 give them.

A spec vector `BV(n)` is `BitVec n`. Its position `i` (position 0 first, leftmost, most significant) is
`v.getMsbD i`; `num v` is `v.toNat`; `bv_n x` is `BitVec.ofNat n x`; `a || b` is `a ++ b`; the integer on a
64-bit port is `num v` (R13). -/

namespace Sys2Proof

/-- 64 bits: a Key or a Block (R7, `KEY_W`, `BLOCK_W`). -/
abbrev Block := BitVec 64

/-- 28 bits: `C` or `D` (R7, `HALFKEY_W`). -/
abbrev HalfKey := BitVec 28

/-- 48 bits: a round key or an expanded half (R7, `RK_W`). -/
abbrev RoundKey := BitVec 48

/-- 32 bits: a Feistel half (R7, `HALF_W`). -/
abbrev Half := BitVec 32

/-- Sixteen round keys, indexed 0..15 (R20, RoundKeySchedule; R7, `N_ROUNDS`). -/
abbrev RoundKeys := Vector RoundKey 16

/-- A bit-vector together with its length: what a function whose result length depends on its operands
returns. -/
structure Bits where
  width : Nat
  val   : BitVec width
deriving DecidableEq, Repr

end Sys2Proof
end

