-- ==== Sys2Proof/Config.lean ====
section
/-! DEFINITION. What the spec leaves open, as uninterpreted constants (spec/00_scope.md rule R8: `SCHED`,
`UNSPEC`; the host's port values, R35). None has a body, so nothing can be proved of a value. The constant tables,
the other half of the configuration (R117), stand in Sys2Proof/Machine/Tables.lean under the same namespace. -/

namespace Sys2Proof

/-- The values on the input ports at one clock edge (spec/10_state.md rule R32). -/
structure Ports where
  rst     : Bool
  start   : Bool
  keyIn   : Block
  blockIn : Block
deriving DecidableEq, Repr, Inhabited

/-- The three moves of `SCHED` where a `KS` step and `IP_LOAD` are both enabled
(spec/70_reset_and_hazards.md rule R211). -/
inductive SchedChoice where
  | ksOnly
  | ipuOnly
  | both
deriving DecidableEq, Repr, Inhabited

/-- The registers that hold `UNSPEC` after a reset (spec/10_state.md rule R38). -/
inductive DataReg where
  | keyr
  | dinr
  | c
  | d
  | rk (i : Fin 16)
  | l
  | r
  | dout
deriving DecidableEq, Repr

/-- The value an `UNSPEC` register of width `w` holds after the `n`-th time it became unspecified: a free value
(R8 `UNSPEC`, R38, spec/93_implementation_defined.md U1; log 4). -/
opaque Config.unspec : (w : Nat) → DataReg → Nat → BitVec w

/-- What the host drives at an edge for which `State` lists no port sample: a free value (R35; log 2). -/
opaque Config.freePorts : Nat → Ports

/-- Which move `SCHED` makes at an edge for which `State` lists no choice: a free value (R8 `SCHED`; log 3). -/
opaque Config.freeChoice : Nat → SchedChoice

end Sys2Proof
end

