-- ==== Sys2Proof/Syntax.lean ====
section
/-! DEFINITION. The operations of the core, one constructor for each row of spec/opcode_table.json
(spec/00_scope.md rule R18, spec/30_encoding.md rule R70). Class `FN` operations carry their operands, with the
lengths of the vectors in the types (R16, R53; log 20 for the length a table is made for); class `STEP` operations take theirs
from the registers and the input ports. -/

namespace Sys2Proof

/-- Who performs steps (spec/10_state.md rule R40). -/
inductive Agent where
  | host
  | ks
  | ipu
  | drv
deriving DecidableEq, Repr

inductive Instr where
  /-- `PERMUTE(v, T)`, R90; `t` holds 1-based source indices. A table carries no input length of its own: it is taken
  as made for the `n` of `v` (DESIGN CHOICE, unsafe; log 20). -/
  | permute (n : Nat) (v : BitVec n) (t : List Nat)
  /-- `ROTL(v, k)`, R91. -/
  | rotl (n : Nat) (v : BitVec n) (k : Nat)
  /-- `XOR(a, b)`, R92. -/
  | xor (n : Nat) (a b : BitVec n)
  /-- `CHUNK(v, n)`, R93, `v` of `m` bits. -/
  | chunk (m : Nat) (v : BitVec m) (n : Nat)
  /-- `SPLIT(v)`, R94, `v` of `2h` bits. -/
  | split (h : Nat) (v : BitVec (2 * h))
  /-- `a || b`, R95. -/
  | concat (p q : Nat) (a : BitVec p) (b : BitVec q)
  /-- `HEXBITS(s)`, R76. -/
  | hexbits (s : List Char)
  /-- `ASCIIBITS(s)`, R77. -/
  | asciibits (s : List Char)
  /-- `KS_INIT(key)`, R120. -/
  | ksInit (key : Block)
  /-- `KS_NEXT(C, D, i)`, R121. -/
  | ksNext (c d : HalfKey) (i : Fin 16)
  /-- `DERIVE_ROUND_KEYS(key)`, R122. -/
  | deriveRoundKeys (key : Block)
  /-- `SBOX(b, ch)`, R130. -/
  | sbox (b : Fin 8) (ch : BitVec 6)
  /-- `SUBST(v)`, R131. -/
  | subst (v : RoundKey)
  /-- `EXPAND(r)`, R140. -/
  | expand (r : Half)
  /-- `FEISTEL_F(r, k)`, R141. -/
  | feistelF (r : Half) (k : RoundKey)
  /-- `ROUND_FN(l, r, k)`, R142. -/
  | roundFn (l r : Half) (k : RoundKey)
  /-- `IP_FN(b)`, R150. -/
  | ipFn (b : Block)
  /-- `FP_FN(b)`, R151. -/
  | fpFn (b : Block)
  /-- `ENCRYPT_BLOCK(pt, key)`, R155. -/
  | encryptBlock (pt key : Block)
  /-- Step `RESET`, R200. -/
  | reset
  /-- Step `IDLE`, R161. -/
  | idle
  /-- Step `START`, R160. -/
  | start
  /-- Step `KS_LOAD`, R123. -/
  | ksLoad
  /-- Step `KS_ROUND`, R124. -/
  | ksRound
  /-- Step `IP_LOAD`, R152. -/
  | ipLoad
  /-- Step `JOIN`, R162. -/
  | join
  /-- Step `ROUND`, R163. -/
  | round
  /-- Step `FINAL`, R164. -/
  | final
deriving DecidableEq, Repr

end Sys2Proof
end

