-- ==== Sys2Proof/WellFormed.lean ====
section
/-! DEFINITION. What `requires` asks of an operation beyond what its operand types already say
(spec/00_scope.md rule R16). The lengths of vectors are types; the checks left are those on values.
The input length a permutation table is made for is no type and is not checked (log 20). -/

namespace Sys2Proof

/-- Every entry of a permutation table lies in `1 .. n` (R90, R100; its failure is the source's
`InvalidTableEntry`, R182). `n` is the width of the operand, which the model takes as the length the table is made for
(DESIGN CHOICE, unsafe; log 20). -/
def tableInRange (n : Nat) (t : List Nat) : Bool :=
  t.all fun e => decide (1 ≤ e) && decide (e ≤ n)

/-- A hexadecimal digit, of either letter case (R76). -/
def isHexDigit (c : Char) : Bool :=
  (decide (48 ≤ c.toNat) && decide (c.toNat ≤ 57)) ||
  (decide (65 ≤ c.toNat) && decide (c.toNat ≤ 70)) ||
  (decide (97 ≤ c.toNat) && decide (c.toNat ≤ 102))

/-- An 8-bit character (R77). -/
def isByteChar (c : Char) : Bool :=
  decide (c.toNat < 256)

/-- The preconditions of R90, R91, R93, R76 and R77; every other operation has none. Of R90's, that `len(v)` is the
length the table is made for is settled by taking it as made for `n` (log 20). -/
def Instr.wellFormed : Instr → Bool
  | .permute n _ t => tableInRange n t
  | .rotl n _ _ => decide (1 ≤ n)
  | .xor _ _ _ => true
  | .chunk _ _ n => decide (1 ≤ n)
  | .split _ _ => true
  | .concat _ _ _ _ => true
  | .hexbits s => s.all isHexDigit
  | .asciibits s => s.all isByteChar
  | .ksInit _ => true
  | .ksNext _ _ _ => true
  | .deriveRoundKeys _ => true
  | .sbox _ _ => true
  | .subst _ => true
  | .expand _ => true
  | .feistelF _ _ => true
  | .roundFn _ _ _ => true
  | .ipFn _ => true
  | .fpFn _ => true
  | .encryptBlock _ _ => true
  | .reset => true
  | .idle => true
  | .start => true
  | .ksLoad => true
  | .ksRound => true
  | .ipLoad => true
  | .join => true
  | .round => true
  | .final => true

end Sys2Proof
end

