-- ==== Sys2Proof/Decode.lean ====
section
/-! DEFINITION. Step selection: the select word `SEL`, its decoder and its encoder (spec/30_encoding.md rules R70
to R74). Bit 6 down to bit 0 of `SEL` are `rst`, `PH[1]`, `PH[0]`, `KS_LD`, `KS_DONE`, `IP_DONE`, `start` (R71).
Decoding yields the SET of enabled steps, at most one per agent (R73). Class `FN` has no code (R70). -/

namespace Sys2Proof

/-- The agent that performs an operation (R40, R72); a function is performed by none. -/
def Instr.agent : Instr → Option Agent
  | .permute _ _ _ => none
  | .rotl _ _ _ => none
  | .xor _ _ _ => none
  | .chunk _ _ _ => none
  | .split _ _ => none
  | .concat _ _ _ _ => none
  | .hexbits _ => none
  | .asciibits _ => none
  | .ksInit _ => none
  | .ksNext _ _ _ => none
  | .deriveRoundKeys _ => none
  | .sbox _ _ => none
  | .subst _ => none
  | .expand _ => none
  | .feistelF _ _ => none
  | .roundFn _ _ _ => none
  | .ipFn _ => none
  | .fpFn _ => none
  | .encryptBlock _ _ => none
  | .reset => some .drv
  | .idle => some .drv
  | .start => some .drv
  | .ksLoad => some .ks
  | .ksRound => some .ks
  | .ipLoad => some .ipu
  | .join => some .drv
  | .round => some .drv
  | .final => some .drv

/-- Mask and match over `SEL`, the table of R72; a function has no row there (R70). -/
def Instr.selPattern : Instr → Option (BitVec 7 × BitVec 7)
  | .permute _ _ _ => none
  | .rotl _ _ _ => none
  | .xor _ _ _ => none
  | .chunk _ _ _ => none
  | .split _ _ => none
  | .concat _ _ _ _ => none
  | .hexbits _ => none
  | .asciibits _ => none
  | .ksInit _ => none
  | .ksNext _ _ _ => none
  | .deriveRoundKeys _ => none
  | .sbox _ _ => none
  | .subst _ => none
  | .expand _ => none
  | .feistelF _ _ => none
  | .roundFn _ _ _ => none
  | .ipFn _ => none
  | .fpFn _ => none
  | .encryptBlock _ _ => none
  | .reset => some (0x40, 0x40)
  | .idle => some (0x71, 0x00)
  | .start => some (0x71, 0x01)
  | .ksLoad => some (0x7C, 0x10)
  | .ksRound => some (0x7C, 0x18)
  | .ipLoad => some (0x72, 0x10)
  | .join => some (0x7E, 0x1E)
  | .round => some (0x7E, 0x2E)
  | .final => some (0x7E, 0x3E)

/-- The rows of R72. A `KS` row stands before the `IPU` row, so a two-member set lists `KS` first. -/
def stepRows : List Instr :=
  [.reset, .idle, .start, .ksLoad, .ksRound, .ipLoad, .join, .round, .final]

/-- A step is enabled when `(SEL & mask) == match` (R72). -/
def enables (sel : BitVec 7) (i : Instr) : Bool :=
  match i.selPattern with
  | some (mask, pat) => sel &&& mask == pat
  | none => false

def selRst (sel : BitVec 7) : Bool := sel.getLsbD 6
def selPh (sel : BitVec 7) : BitVec 2 := sel.extractLsb' 4 2
def selKsLd (sel : BitVec 7) : Bool := sel.getLsbD 3
def selKsDone (sel : BitVec 7) : Bool := sel.getLsbD 2
def selIpDone (sel : BitVec 7) : Bool := sel.getLsbD 1
def selStart (sel : BitVec 7) : Bool := sel.getLsbD 0

/-- `SEL` put together from its fields (R71). -/
def mkSel (rst : Bool) (ph : BitVec 2) (ksLd ksDone ipDone start : Bool) : BitVec 7 :=
  BitVec.ofBool rst ++ ph ++ BitVec.ofBool ksLd ++ BitVec.ofBool ksDone ++ BitVec.ofBool ipDone ++
    BitVec.ofBool start

/-- The values of `SEL` whose state fields R74 reserves: with `rst = 0`, `PREP` with `KS_DONE` but not `KS_LD`, and
`ROUNDS` or `FINAL` with one of the three flags 0. (The reserved states that only `DONE` shows are not visible in
`SEL`; see `Machine.State.reserved`.) -/
def reservedSel (sel : BitVec 7) : Bool :=
  !selRst sel &&
    ((selPh sel == 1 && !selKsLd sel && selKsDone sel) ||
     ((selPh sel == 2 || selPh sel == 3) && !(selKsLd sel && selKsDone sel && selIpDone sel)))

/-- Why a word selects nothing. -/
inductive Reject where
  /-- The state fields are reserved (R74). -/
  | reservedSelection
  /-- More than the seven bits of `SEL` (R71). -/
  | notSevenBits
deriving DecidableEq, Repr

/-- What decoding answers: the set of enabled steps, or a rejection by name. -/
inductive Decoded where
  | enabled (is : List Instr)
  | rejected (r : Reject)
deriving DecidableEq, Repr

/-- Decoding of a select word (R73), with the reserved values rejected (R74). -/
def decode (sel : BitVec 7) : Decoded :=
  if reservedSel sel then .rejected .reservedSelection
  else .enabled (stepRows.filter (enables sel))

/-- Decoding of any number as a select word: `SEL` has seven bits and no other form (R71, R81). -/
def decodeWord (w : Nat) : Decoded :=
  if w < 128 then decode (BitVec.ofNat 7 w) else .rejected .notSevenBits

/-- A select word that matches the row of `i`, with the don't-care bits taken from `fill`; a function has none. -/
def encodeWith (fill : BitVec 7) (i : Instr) : Option (BitVec 7) :=
  match i.selPattern with
  | some (mask, pat) => some (pat ||| (fill &&& ~~~mask))
  | none => none

/-- The row's own match value: its word with every don't-care bit 0. -/
def encode (i : Instr) : Option (BitVec 7) :=
  encodeWith 0 i

/-- The instruction the decoder reads from a table word. Where the word selects two steps (`KS` and `IPU`) this
answers the `KS` one (log 10). -/
def decodeTableWord (nbits w : Nat) : Option Instr :=
  if nbits < 7 then none
  else
    match decodeWord w with
    | .enabled (i :: _) => some i
    | .enabled [] => none
    | .rejected _ => none

end Sys2Proof
end

