-- ==== Sys2Proof/Machine/State.lean ====
section
/-! DEFINITION. The state of the core (spec/10_state.md), plain data, and why a step can stop.

The registers and flags are those of R41. The last five fields are the model's own: the parameters of the step
relation that the spec keeps outside the state (R35: input ports and schedule, log 1 and 3), the indices of the free
values (log 5 and 6), and the value an operation of class `FN` returned (log 7). -/

namespace Sys2Proof.Machine

/-- `PH`, the phase register (R27). -/
inductive Phase where
  | idle
  | prep
  | rounds
  | final
deriving DecidableEq, Repr

structure State where
  /-- `KEYR` (R21). -/
  keyr : Block
  /-- `DINR` (R22). -/
  dinr : Block
  /-- `C` (R23). -/
  c : HalfKey
  /-- `D` (R23). -/
  d : HalfKey
  /-- `RK[0..15]` (R24). -/
  rk : RoundKeys
  /-- `L` (R25). -/
  l : Half
  /-- `R` (R25). -/
  r : Half
  /-- `DOUT` (R26). -/
  dout : Block
  /-- `PH` (R27). -/
  ph : Phase
  /-- `KI` (R28). -/
  ki : BitVec 4
  /-- `RI` (R29). -/
  ri : BitVec 4
  /-- `KS_LD` (R30). -/
  ksLd : Bool
  /-- `KS_DONE` (R30). -/
  ksDone : Bool
  /-- `IP_DONE` (R30). -/
  ipDone : Bool
  /-- `DONE` (R30). -/
  done : Bool
  /-- What the host drives, one sample for each coming edge (R32, R35, R83). -/
  hostInputs : List Ports
  /-- The moves of `SCHED`, one for each coming edge that leaves a choice (R8, R211). -/
  schedule : List SchedChoice
  /-- The number of the next clock edge: the index of the free port values and choices. -/
  edge : Nat
  /-- How often the data registers became `UNSPEC`: the index of their free values. -/
  draws : Nat
  /-- What the last `FN` operation executed by itself returned. -/
  fnOut : List Bits
deriving DecidableEq, Repr

/-- Why the machine stops with a fault. -/
inductive Fault where
  /-- Raised by every step, and by every `STEP` operation, in a control state that R74 reserves, with `rst = 0`
  ("a model either makes these states unrepresentable or has every step function return a fault"). Safe: the spec
  gives no behaviour there, and no run from a reset reaches it (R37). -/
  | reservedControlState
deriving DecidableEq, Repr

/-- Why an operation has no next state. -/
inductive Refusal where
  /-- Raised by the dispatch for an operation without a meaning; no arm uses it. Safe: nothing is claimed. -/
  | notModelled (mnemonic : String)
  /-- Raised by a `STEP` operation executed where `SEL` does not enable it (R72). Safe: such a step is not taken, and
  `step` never asks for it. -/
  | notEnabled
  /-- Raised by `PERMUTE` given a table with an entry outside `1..n`: the source's `InvalidTableEntry`, a contract
  violation (R90, R182, U8); `n` is the width of the operand (log 20). Safe: the function is defined only where the precondition holds (R16). -/
  | invalidTableEntry
  /-- Raised by `ROTL` of the vector of length 0 (R91 requires `n >= 1`). Safe, as above. -/
  | emptyVector
  /-- Raised by `CHUNK` with chunk size 0 (R93 requires `n >= 1`). Safe, as above. -/
  | zeroChunkSize
  /-- Raised by `HEXBITS` of a string with a character that is no hexadecimal digit (R76). Safe, as above. -/
  | notHexDigit
  /-- Raised by `ASCIIBITS` of a string with a character of more than 8 bits (R77). Safe, as above. -/
  | notByteCharacter
deriving DecidableEq, Repr

/-- `RK[0..15]` after the `n`-th time it became unspecified (R38; log 4). -/
def unspecRk (n : Nat) : RoundKeys :=
  Vector.ofFn fun i : Fin 16 => Config.unspec 48 (.rk i) n

/-- The state right after reset (R38): control state cleared, data registers holding free values (log 4), no host
input and no schedule listed (log 1, 3), edge 0 being the reset edge (log 6). -/
def State.reset : State where
  keyr := Config.unspec 64 .keyr 0
  dinr := Config.unspec 64 .dinr 0
  c := Config.unspec 28 .c 0
  d := Config.unspec 28 .d 0
  rk := unspecRk 0
  l := Config.unspec 32 .l 0
  r := Config.unspec 32 .r 0
  dout := Config.unspec 64 .dout 0
  ph := .idle
  ki := 0
  ri := 0
  ksLd := false
  ksDone := false
  ipDone := false
  done := false
  hostInputs := []
  schedule := []
  edge := 1
  draws := 1
  fnOut := []

end Sys2Proof.Machine
end

