-- ==== Sys2Proof/Machine/Operands.lean ====
section
/-! DEFINITION. Where operands come from: the input ports at an edge (R32), the schedule's choice (R211), the
indexed register file `RK` (R24), the two counters as indices (R28, R29), and the text forms of a vector
(spec/30_encoding.md rules R76, R77). -/

namespace Sys2Proof.Machine

/-- The values on the input ports at the next clock edge: one definite value each (R32, R207). -/
def State.ports (s : State) : Ports :=
  match s.hostInputs with
  | p :: _ => p
  | [] => Config.freePorts s.edge

/-- The move `SCHED` makes where it has a choice at the next edge (R211). -/
def State.choice (s : State) : SchedChoice :=
  match s.schedule with
  | x :: _ => x
  | [] => Config.freeChoice s.edge

/-- A 4-bit counter as an index `0..15` (R28, R29). -/
def counterIndex (x : BitVec 4) : Fin 16 :=
  ⟨x.toNat, x.isLt⟩

/-- `RK[i]` read (R14, R24). -/
def readRk (rk : RoundKeys) (i : Fin 16) : RoundKey :=
  rk[i.val]

/-- `RK[i] <- k` (R14, R24). -/
def writeRk (rk : RoundKeys) (i : Fin 16) (k : RoundKey) : RoundKeys :=
  rk.set i.val k

/-- A counter's next value: one more, but 15 stays 15; it never wraps (R28, R29). -/
def countUp (x : BitVec 4) : BitVec 4 :=
  if x = 15 then x else x + 1

/-- The value of a hexadecimal digit, either letter case (R76). -/
def hexValue (ch : Char) : Nat :=
  if ch.toNat ≤ 57 then ch.toNat - 48
  else if ch.toNat ≤ 70 then ch.toNat - 55
  else ch.toNat - 87

/-- The digit of a value 0..15, upper case: the inverse of `hexValue`, for writing vectors as text (R78). -/
def hexDigit (x : Nat) : Char :=
  if x < 10 then Char.ofNat (48 + x) else Char.ofNat (55 + x)

/-- A vector's bits in order, position 0 first (R10). -/
def positions {n : Nat} (v : BitVec n) : List Bool :=
  (List.range n).map v.getMsbD

/-- The vector of `m` bits whose positions, in order, are the list's (R10, R11). -/
def fromPositions {m : Nat} (bs : List Bool) : BitVec m :=
  (BitVec.ofBoolListBE bs).setWidth m

/-- `HEXBITS`: digit `k` supplies positions `4k .. 4k+3` (R76). -/
def hexBits (s : List Char) : BitVec (4 * s.length) :=
  fromPositions (s.flatMap fun ch => positions (BitVec.ofNat 4 (hexValue ch)))

/-- `ASCIIBITS`: character `k` supplies positions `8k .. 8k+7` (R77). -/
def asciiBits (s : List Char) : BitVec (8 * s.length) :=
  fromPositions (s.flatMap fun ch => positions (BitVec.ofNat 8 ch.toNat))

end Sys2Proof.Machine
end

