-- ==== Sys2Proof/Machine/Flags.lean ====
section
/-! DEFINITION. The views of the control state: the code of `PH` (R27), the select word (R71), the reserved states
(R74) and the output ports (R33). The four flags are not condition codes (R30): each is written by the steps that
R30 names, in their own effects, and read here. -/

namespace Sys2Proof.Machine

/-- The code `PH[1:0]` (R27). -/
def Phase.code : Phase → BitVec 2
  | .idle => 0
  | .prep => 1
  | .rounds => 2
  | .final => 3

/-- The phase of a code; all four are used (R27). -/
def Phase.ofCode (x : BitVec 2) : Phase :=
  if x = 0 then .idle else if x = 1 then .prep else if x = 2 then .rounds else .final

/-- `SEL`, on the state before the step and the ports at the step instant (R71). -/
def State.sel (s : State) : BitVec 7 :=
  mkSel s.ports.rst s.ph.code s.ksLd s.ksDone s.ipDone s.ports.start

/-- The control states R74 lists, with `rst = 0`: those `SEL` shows, and `DONE` set outside `IDLE` (log 9). -/
def State.reserved (s : State) : Bool :=
  reservedSel s.sel || (!s.ports.rst && s.ph != .idle && s.done)

/-- Output port `busy` (R33). -/
def State.busy (s : State) : Bool :=
  s.ph != .idle

/-- Output port `done` is the flag `DONE` (R33). -/
def State.donePort (s : State) : Bool :=
  s.done

/-- Output port `block_out`: `DOUT` while `DONE = 1`, else no value (R33, U2; log 14). -/
def State.blockOut (s : State) : Option Block :=
  if s.done then some s.dout else none

end Sys2Proof.Machine
end

