-- ==== Sys2Proof/Machine/Ops.lean ====
section
/-! DEFINITION. The two shared operations every meaning is made of.

The core has no trap, no interrupt and no return from one (spec/60_exceptions.md rules R183 to R189): there is no
exception entry to share. It has no read-write memory (R15): there is no memory operation either. -/

namespace Sys2Proof.Machine

/-- A `STEP` operation: its effect where `SEL` enables it (R72), a fault in a reserved control state (R74), and a
refusal elsewhere, where the step is not taken (log 8). -/
def performStep (i : Instr) (effect : State → State) (s : State) : Host.Outcome State Fault Refusal :=
  if s.reserved then .fault .reservedControlState
  else if enables s.sel i then .next (effect s)
  else .refused .notEnabled

/-- The result of an `FN` operation goes to `fnOut`; a function has no other effect and takes no time (R17; log 7). -/
def State.withFnOut (s : State) (out : List Bits) : State :=
  { s with fnOut := out }

/-- An `FN` operation: its result where its precondition holds, else a refusal by name (R16). -/
def performFn (ok : Bool) (why : Refusal) (out : List Bits) (s : State) : Host.Outcome State Fault Refusal :=
  if ok then .next (s.withFnOut out) else .refused why

end Sys2Proof.Machine
end

