-- ==== Sys2Proof/Machine/BitVector.lean ====
section
/-! DEFINITION. BitVector Utilities (spec/40_bitvector.md rules R90 to R95) and the two boundary encodings
(spec/30_encoding.md rules R76, R77): the functions and their meanings as operations. -/

namespace Sys2Proof.Machine

/-- `sub(v, a, m)`: positions `a .. a+m-1` (R12). -/
def sub {n : Nat} (v : BitVec n) (a m : Nat) : BitVec m :=
  v.extractLsb' (n - (a + m)) m

/-- `out[i] = v[T[i] - 1]`, as many positions as `T` has entries (R90). -/
def permute {n m : Nat} (v : BitVec n) (t : List Nat) : BitVec m :=
  fromPositions (t.map fun e => v.getMsbD (e - 1))

/-- `out[i] = v[(i + k) mod n]` (R91). -/
def rotl {n : Nat} (v : BitVec n) (k : Nat) : BitVec n :=
  v.rotateLeft k

/-- `out[i] = a[i] XOR b[i]` (R92). -/
def xorBits {n : Nat} (a b : BitVec n) : BitVec n :=
  a ^^^ b

/-- `piece[j] = sub(v, j*n, min(n, m - j*n))` for `j` in `0 .. ceil(m/n)-1` (R93). -/
def chunk {m : Nat} (v : BitVec m) (n : Nat) : List Bits :=
  (List.range ((m + n - 1) / n)).map fun j =>
    ⟨min n (m - j * n), sub v (j * n) (min n (m - j * n))⟩

/-- The contiguous halves `(sub(v, 0, h), sub(v, h, h))` (R94; spec/90_conflicts.md C1). -/
def split {n : Nat} (h : Nat) (v : BitVec n) : BitVec h × BitVec h :=
  (sub v 0 h, sub v h h)

/-- `a || b` (R95). -/
def concat {p q : Nat} (a : BitVec p) (b : BitVec q) : BitVec (p + q) :=
  a ++ b

/-- `PERMUTE` (R90), with the table taken as made for `n` (log 20). -/
def execPermute (n : Nat) (v : BitVec n) (t : List Nat) (s : State) : Host.Outcome State Fault Refusal :=
  performFn (tableInRange n t) .invalidTableEntry [⟨t.length, permute v t⟩] s

/-- `ROTL` (R91). -/
def execRotl (n : Nat) (v : BitVec n) (k : Nat) (s : State) : Host.Outcome State Fault Refusal :=
  performFn (decide (1 ≤ n)) .emptyVector [⟨n, rotl v k⟩] s

/-- `XOR` (R92). -/
def execXor (n : Nat) (a b : BitVec n) (s : State) : Host.Outcome State Fault Refusal :=
  .next (s.withFnOut [⟨n, xorBits a b⟩])

/-- `CHUNK` (R93). -/
def execChunk (m : Nat) (v : BitVec m) (n : Nat) (s : State) : Host.Outcome State Fault Refusal :=
  performFn (decide (1 ≤ n)) .zeroChunkSize (chunk v n) s

/-- `SPLIT` (R94). -/
def execSplit (h : Nat) (v : BitVec (2 * h)) (s : State) : Host.Outcome State Fault Refusal :=
  .next (s.withFnOut [⟨h, (split h v).1⟩, ⟨h, (split h v).2⟩])

/-- `CONCAT` (R95). -/
def execConcat (p q : Nat) (a : BitVec p) (b : BitVec q) (s : State) : Host.Outcome State Fault Refusal :=
  .next (s.withFnOut [⟨p + q, concat a b⟩])

/-- `HEXBITS` (R76). -/
def execHexbits (cs : List Char) (s : State) : Host.Outcome State Fault Refusal :=
  performFn (cs.all isHexDigit) .notHexDigit [⟨4 * cs.length, hexBits cs⟩] s

/-- `ASCIIBITS` (R77). -/
def execAsciibits (cs : List Char) (s : State) : Host.Outcome State Fault Refusal :=
  performFn (cs.all isByteChar) .notByteCharacter [⟨8 * cs.length, asciiBits cs⟩] s

end Sys2Proof.Machine
end

