-- ==== Sys2Proof/Machine/KeySchedule.lean ====
section
/-! DEFINITION. Key Schedule Generator (spec/42_key_schedule.md rules R120 to R124): three functions and the two
steps of the agent `KS`. -/

namespace Sys2Proof.Machine

/-- `KS_INIT(key)`: PC-1, then the contiguous halves (R120). -/
def ksInit (key : Block) : HalfKey × HalfKey :=
  split 28 (permute key Config.pc1 : BitVec 56)

/-- The rotation amount of pass `i`, `SHIFT[i]` (R101). -/
def shiftAmount (i : Fin 16) : Nat :=
  tableRead Config.shift i.val

/-- `KS_NEXT(C, D, i)`: rotate both halves by `SHIFT[i]`, then PC-2 of the rotated halves (R121). -/
def ksNext (c d : HalfKey) (i : Fin 16) : HalfKey × HalfKey × RoundKey :=
  (rotl c (shiftAmount i), rotl d (shiftAmount i),
    permute (concat (rotl c (shiftAmount i)) (rotl d (shiftAmount i))) Config.pc2)

/-- One pass of the loop of R122: `C`, `D` carry forward, and `K[i]` is filled in. -/
def keyPass (x : HalfKey × HalfKey × RoundKeys) (i : Fin 16) : HalfKey × HalfKey × RoundKeys :=
  ((ksNext x.1 x.2.1 i).1, (ksNext x.1 x.2.1 i).2.1, writeRk x.2.2 i (ksNext x.1 x.2.1 i).2.2)

/-- `C`, `D` and the round keys produced so far, after `n` passes (R122; pass `n` has index `n`, R124). -/
def keyPasses (key : Block) : Nat → HalfKey × HalfKey × RoundKeys
  | 0 => ((ksInit key).1, (ksInit key).2, Vector.replicate 16 0)
  | n + 1 => keyPass (keyPasses key n) (Fin.ofNat 16 n)

/-- `DERIVE_ROUND_KEYS(key)`: the keys of all sixteen passes (R122). -/
def deriveRoundKeys (key : Block) : RoundKeys :=
  (keyPasses key 16).2.2

/-- `KS_INIT` (R120). -/
def execKsInit (key : Block) (s : State) : Host.Outcome State Fault Refusal :=
  .next (s.withFnOut [⟨28, (ksInit key).1⟩, ⟨28, (ksInit key).2⟩])

/-- `KS_NEXT` (R121). -/
def execKsNext (c d : HalfKey) (i : Fin 16) (s : State) : Host.Outcome State Fault Refusal :=
  .next (s.withFnOut [⟨28, (ksNext c d i).1⟩, ⟨28, (ksNext c d i).2.1⟩, ⟨48, (ksNext c d i).2.2⟩])

/-- `DERIVE_ROUND_KEYS` (R122): the sixteen keys in order, `K[0]` first. -/
def execDeriveRoundKeys (key : Block) (s : State) : Host.Outcome State Fault Refusal :=
  .next (s.withFnOut ((deriveRoundKeys key).toList.map fun k => ⟨48, k⟩))

/-- What `KS_LOAD` writes (R123). -/
def ksLoadEffect (s : State) : State :=
  { s with c := (ksInit s.keyr).1, d := (ksInit s.keyr).2, ksLd := true }

/-- What `KS_ROUND` writes (R124); all right-hand sides are read before the step (R14). -/
def ksRoundEffect (s : State) : State :=
  { s with
    c := (ksNext s.c s.d (counterIndex s.ki)).1
    d := (ksNext s.c s.d (counterIndex s.ki)).2.1
    rk := writeRk s.rk (counterIndex s.ki) (ksNext s.c s.d (counterIndex s.ki)).2.2
    ki := countUp s.ki
    ksDone := if s.ki = 15 then true else s.ksDone }

/-- `KS_LOAD` (R123). -/
def execKsLoad (s : State) : Host.Outcome State Fault Refusal :=
  performStep .ksLoad ksLoadEffect s

/-- `KS_ROUND` (R124). -/
def execKsRound (s : State) : Host.Outcome State Fault Refusal :=
  performStep .ksRound ksRoundEffect s

end Sys2Proof.Machine
end

