-- ==== Sys2Proof/Machine/Permutations.lean ====
section
/-! DEFINITION. Initial and final permutation (spec/45_permutations.md rules R150 to R152) and the step of the agent
`IPU`. -/

namespace Sys2Proof.Machine

/-- `IP_FN(b) = PERMUTE(b, IP)` (R150). -/
def ipFn (b : Block) : Block :=
  permute b Config.ip

/-- `FP_FN(b) = PERMUTE(b, FP)` (R151). -/
def fpFn (b : Block) : Block :=
  permute b Config.fp

/-- `IP_FN` (R150). -/
def execIpFn (b : Block) (s : State) : Host.Outcome State Fault Refusal :=
  .next (s.withFnOut [⟨64, ipFn b⟩])

/-- `FP_FN` (R151). -/
def execFpFn (b : Block) (s : State) : Host.Outcome State Fault Refusal :=
  .next (s.withFnOut [⟨64, fpFn b⟩])

/-- What `IP_LOAD` writes (R152). -/
def ipLoadEffect (s : State) : State :=
  { s with l := (split 32 (ipFn s.dinr)).1, r := (split 32 (ipFn s.dinr)).2, ipDone := true }

/-- `IP_LOAD` (R152). -/
def execIpLoad (s : State) : Host.Outcome State Fault Refusal :=
  performStep .ipLoad ipLoadEffect s

end Sys2Proof.Machine
end

