-- ==== Sys2Proof/Machine/Substitution.lean ====
section
/-! DEFINITION. Substitution Engine (spec/43_substitution.md rules R130, R131). -/

namespace Sys2Proof.Machine

/-- The row of a chunk, `2*ch[0] + ch[5]` (R80, R130). -/
def sboxRow (ch : BitVec 6) : Nat :=
  2 * (ch.getMsbD 0).toNat + (ch.getMsbD 5).toNat

/-- The column of a chunk, `8*ch[1] + 4*ch[2] + 2*ch[3] + ch[4]` (R80, R130). -/
def sboxCol (ch : BitVec 6) : Nat :=
  8 * (ch.getMsbD 1).toNat + 4 * (ch.getMsbD 2).toNat + 2 * (ch.getMsbD 3).toNat + (ch.getMsbD 4).toNat

/-- `SBOX(b, ch) = bv_4(S_BOX[b][row][col])` (R130). -/
def sbox (b : Fin 8) (ch : BitVec 6) : BitVec 4 :=
  BitVec.ofNat 4 (sBoxRead b.val (sboxRow ch) (sboxCol ch))

/-- `SUBST(v)`: chunk `b` of six bits through box `b`, the outputs in box order (R131). -/
def subst (v : RoundKey) : Half :=
  sbox 0 (sub v 0 6) ++ sbox 1 (sub v 6 6) ++ sbox 2 (sub v 12 6) ++ sbox 3 (sub v 18 6) ++
    sbox 4 (sub v 24 6) ++ sbox 5 (sub v 30 6) ++ sbox 6 (sub v 36 6) ++ sbox 7 (sub v 42 6)

/-- `SBOX` (R130). -/
def execSbox (b : Fin 8) (ch : BitVec 6) (s : State) : Host.Outcome State Fault Refusal :=
  .next (s.withFnOut [⟨4, sbox b ch⟩])

/-- `SUBST` (R131). -/
def execSubst (v : RoundKey) (s : State) : Host.Outcome State Fault Refusal :=
  .next (s.withFnOut [⟨32, subst v⟩])

end Sys2Proof.Machine
end

