-- ==== Sys2Proof/Machine/RoundEngine.lean ====
section
/-! DEFINITION. Feistel Round Engine (spec/44_round.md rules R140 to R142). -/

namespace Sys2Proof.Machine

/-- `EXPAND(r) = PERMUTE(r, E)` (R140). -/
def expand (r : Half) : RoundKey :=
  permute r Config.e

/-- `FEISTEL_F(r, k)`: expand, XOR with the round key, substitute, permute by `P` (R141). -/
def feistelF (r : Half) (k : RoundKey) : Half :=
  permute (subst (xorBits (expand r) k)) Config.p

/-- `ROUND_FN(l, r, k) = (r, l xor f)`, both from the old halves (R142). -/
def roundFn (l r : Half) (k : RoundKey) : Half × Half :=
  (r, xorBits l (feistelF r k))

/-- `EXPAND` (R140). -/
def execExpand (r : Half) (s : State) : Host.Outcome State Fault Refusal :=
  .next (s.withFnOut [⟨48, expand r⟩])

/-- `FEISTEL_F` (R141). -/
def execFeistelF (r : Half) (k : RoundKey) (s : State) : Host.Outcome State Fault Refusal :=
  .next (s.withFnOut [⟨32, feistelF r k⟩])

/-- `ROUND_FN` (R142). -/
def execRoundFn (l r : Half) (k : RoundKey) (s : State) : Host.Outcome State Fault Refusal :=
  .next (s.withFnOut [⟨32, (roundFn l r k).1⟩, ⟨32, (roundFn l r k).2⟩])

end Sys2Proof.Machine
end

