-- ==== Sys2Proof/Machine/Driver.lean ====
section
/-! DEFINITION. Cipher Driver (spec/46_driver.md rules R155, R160 to R164) and the reset step
(spec/70_reset_and_hazards.md rule R200): one function and the six steps of the agent `DRV`. -/

namespace Sys2Proof.Machine

/-- The halves after the first `n` rounds, round `i` with key `i` (R155, R156). -/
def feistelRounds (rk : RoundKeys) (l r : Half) : Nat → Half × Half
  | 0 => (l, r)
  | n + 1 =>
    roundFn (feistelRounds rk l r n).1 (feistelRounds rk l r n).2 (readRk rk (Fin.ofNat 16 n))

/-- `right || left`, right first, then the final permutation (R155, R164). -/
def finish (l r : Half) : Block :=
  fpFn (concat r l)

/-- `ENCRYPT_BLOCK(pt, key)` (R155). -/
def encryptBlock (pt key : Block) : Block :=
  finish
    (feistelRounds (deriveRoundKeys key) (split 32 (ipFn pt)).1 (split 32 (ipFn pt)).2 16).1
    (feistelRounds (deriveRoundKeys key) (split 32 (ipFn pt)).1 (split 32 (ipFn pt)).2 16).2

/-- `ENCRYPT_BLOCK` (R155). -/
def execEncryptBlock (pt key : Block) (s : State) : Host.Outcome State Fault Refusal :=
  .next (s.withFnOut [⟨64, encryptBlock pt key⟩])

/-- What `RESET` does (R200): the control state is cleared, and every data register becomes `UNSPEC`, a fresh free
value (R38; log 4, 5). -/
def resetEffect (s : State) : State :=
  { s with
    keyr := Config.unspec 64 .keyr s.draws
    dinr := Config.unspec 64 .dinr s.draws
    c := Config.unspec 28 .c s.draws
    d := Config.unspec 28 .d s.draws
    rk := unspecRk s.draws
    l := Config.unspec 32 .l s.draws
    r := Config.unspec 32 .r s.draws
    dout := Config.unspec 64 .dout s.draws
    ph := .idle
    ki := 0
    ri := 0
    ksLd := false
    ksDone := false
    ipDone := false
    done := false
    draws := s.draws + 1 }

/-- What `START` writes (R160): both ports sampled at the same instant. -/
def startEffect (s : State) : State :=
  { s with
    keyr := s.ports.keyIn
    dinr := s.ports.blockIn
    ksLd := false
    ksDone := false
    ipDone := false
    done := false
    ki := 0
    ri := 0
    ph := .prep }

/-- What `IDLE` writes: nothing (R161). -/
def idleEffect (s : State) : State :=
  s

/-- What `JOIN` writes (R162). -/
def joinEffect (s : State) : State :=
  { s with ri := 0, ph := .rounds }

/-- What `ROUND` writes (R163). -/
def roundEffect (s : State) : State :=
  { s with
    l := (roundFn s.l s.r (readRk s.rk (counterIndex s.ri))).1
    r := (roundFn s.l s.r (readRk s.rk (counterIndex s.ri))).2
    ri := countUp s.ri
    ph := if s.ri = 15 then .final else s.ph }

/-- What `FINAL` writes (R164). -/
def finalEffect (s : State) : State :=
  { s with dout := finish s.l s.r, done := true, ph := .idle }

/-- `RESET` (R200). -/
def execReset (s : State) : Host.Outcome State Fault Refusal :=
  performStep .reset resetEffect s

/-- `IDLE` (R161). -/
def execIdle (s : State) : Host.Outcome State Fault Refusal :=
  performStep .idle idleEffect s

/-- `START` (R160). -/
def execStart (s : State) : Host.Outcome State Fault Refusal :=
  performStep .start startEffect s

/-- `JOIN` (R162). -/
def execJoin (s : State) : Host.Outcome State Fault Refusal :=
  performStep .join joinEffect s

/-- `ROUND` (R163). -/
def execRound (s : State) : Host.Outcome State Fault Refusal :=
  performStep .round roundEffect s

/-- `FINAL` (R164). -/
def execFinal (s : State) : Host.Outcome State Fault Refusal :=
  performStep .final finalEffect s

end Sys2Proof.Machine
end

