-- ==== Sys2Proof/Machine/Dispatch.lean ====
section
/-! DEFINITION. One arm per constructor of Instr: the meaning of each operation. -/

namespace Sys2Proof.Machine

def exec (i : Instr) (s : State) : Host.Outcome State Fault Refusal :=
  match i with
  -- class FN
  | .permute n v t => Sys2Proof.Machine.execPermute n v t s
  | .rotl n v k => Sys2Proof.Machine.execRotl n v k s
  | .xor n a b => Sys2Proof.Machine.execXor n a b s
  | .chunk m v n => Sys2Proof.Machine.execChunk m v n s
  | .split h v => Sys2Proof.Machine.execSplit h v s
  | .concat p q a b => Sys2Proof.Machine.execConcat p q a b s
  | .hexbits cs => Sys2Proof.Machine.execHexbits cs s
  | .asciibits cs => Sys2Proof.Machine.execAsciibits cs s
  | .ksInit key => Sys2Proof.Machine.execKsInit key s
  | .ksNext c d k => Sys2Proof.Machine.execKsNext c d k s
  | .deriveRoundKeys key => Sys2Proof.Machine.execDeriveRoundKeys key s
  | .sbox b ch => Sys2Proof.Machine.execSbox b ch s
  | .subst v => Sys2Proof.Machine.execSubst v s
  | .expand r => Sys2Proof.Machine.execExpand r s
  | .feistelF r k => Sys2Proof.Machine.execFeistelF r k s
  | .roundFn l r k => Sys2Proof.Machine.execRoundFn l r k s
  | .ipFn b => Sys2Proof.Machine.execIpFn b s
  | .fpFn b => Sys2Proof.Machine.execFpFn b s
  | .encryptBlock pt key => Sys2Proof.Machine.execEncryptBlock pt key s
  -- class STEP
  | .reset => Sys2Proof.Machine.execReset s
  | .idle => Sys2Proof.Machine.execIdle s
  | .start => Sys2Proof.Machine.execStart s
  | .ksLoad => Sys2Proof.Machine.execKsLoad s
  | .ksRound => Sys2Proof.Machine.execKsRound s
  | .ipLoad => Sys2Proof.Machine.execIpLoad s
  | .join => Sys2Proof.Machine.execJoin s
  | .round => Sys2Proof.Machine.execRound s
  | .final => Sys2Proof.Machine.execFinal s

end Sys2Proof.Machine
end

