-- ==== Sys2Proof/Machine/Edge.lean ====
section
/-! DEFINITION. One rising clock edge (spec/70_reset_and_hazards.md rules R210, R211; spec/30_encoding.md rule R73):
which steps are enabled, which of them the schedule takes, and what is left for the next edge. -/

namespace Sys2Proof.Machine

/-- The set of steps enabled at the next edge (R73), or the rejection of a reserved state (R74). -/
def enabledSet (s : State) : Decoded :=
  if s.reserved then .rejected .reservedSelection else decode s.sel

/-- The steps taken: all of a one-member set; of a `KS` and an `IPU` step those that `SCHED` chooses (R211). -/
def chooseSteps (x : SchedChoice) (is : List Instr) : List Instr :=
  match is with
  | [k, p] =>
    match x with
    | .ksOnly => [k]
    | .ipuOnly => [p]
    | .both => [k, p]
  | other => other

/-- The steps taken at the next edge; none in a reserved state. -/
def stepsTaken (s : State) : List Instr :=
  match enabledSet s with
  | .enabled is => chooseSteps s.choice is
  | .rejected _ => []

/-- The taken steps one after the other. Two steps taken at one edge write disjoint registers and neither reads what
the other writes, so this equals taking them at once (R63, R73, R211; log 11). -/
def runSteps : List Instr → State → Host.Outcome State Fault Refusal
  | [], s => .next s
  | i :: is, s =>
    match exec i s with
    | .next t => runSteps is t
    | .fault f => .fault f
    | .refused r => .refused r

/-- The choices left: one is used up exactly where `SCHED` had a choice (R211; log 3). -/
def scheduleAfter (is : List Instr) (xs : List SchedChoice) : List SchedChoice :=
  match is with
  | [_, _] => xs.tail
  | _ => xs

/-- Time moves to the next edge: the port sample of this one is used up (log 1, 3, 6). -/
def State.endEdge (s : State) (is : List Instr) : State :=
  { s with
    hostInputs := s.hostInputs.tail
    schedule := scheduleAfter is s.schedule
    edge := s.edge + 1 }

/-- One clock edge: the chosen enabled steps, then the next edge (R210, R211). -/
def clockEdge (s : State) : Host.Outcome State Fault Refusal :=
  match enabledSet s with
  | .rejected _ => .fault .reservedControlState
  | .enabled is =>
    match runSteps (chooseSteps s.choice is) s with
    | .next t => .next (t.endEdge is)
    | .fault f => .fault f
    | .refused r => .refused r

/-- The port sample a select word shows: `rst` and `start` from it, key and block 0 (R71). -/
def samplePorts (sel : BitVec 7) : Ports :=
  { rst := selRst sel, start := selStart sel, keyIn := 0, blockIn := 0 }

/-- Whether a select word enables two steps, so that `SCHED` has a choice (R211). -/
def leavesChoice (sel : BitVec 7) : Bool :=
  match decode sel with
  | .enabled [_, _] => true
  | _ => false

/-- The state changed so that its select word at the next edge is `sel` (R71): the state fields of `SEL` are set, the
next port sample gives `rst` and `start`, and where the word leaves the schedule a choice it takes the first of the
two steps; `DONE` is cleared outside `IDLE`, where it would be reserved (R74; log 12). -/
def presentSel (s : State) (sel : BitVec 7) : State :=
  { s with
    ph := Phase.ofCode (selPh sel)
    ksLd := selKsLd sel
    ksDone := selKsDone sel
    ipDone := selIpDone sel
    done := s.done && selPh sel == 0
    hostInputs := samplePorts sel :: s.hostInputs.tail
    schedule := if leavesChoice sel then .ksOnly :: s.schedule.tail else s.schedule }

/-- `presentSel` for a table word; a word of more than seven bits is no select word and changes nothing. -/
def presentTableWord (s : State) (nbits w : Nat) : State :=
  if nbits < 7 then s
  else if w < 128 then presentSel s (BitVec.ofNat 7 w) else s

end Sys2Proof.Machine
end

