-- ==== Sys2Proof/Machine/Step.lean ====
section
/-! DEFINITION. One step of the machine is one rising clock edge. -/

namespace Sys2Proof.Machine

/-- One rising edge of `clk` (R210, R211). -/
def step : State → Host.Outcome State Fault Refusal :=
  clockEdge

/-- `s` with the select word `w` presented at its next edge (log 12). -/
def State.withFetchWord (s : State) (nbits w : Nat) : State :=
  presentTableWord s nbits w

end Sys2Proof.Machine
end

