-- ==== Sys2Proof/Safety.lean ====
section
/-! DEFINITION. The terms claims are stated in: which states a run reaches, what holds of them (spec/10_state.md rule
R37), and the record of the steps a run takes (spec/46_driver.md rule R157). -/

namespace Sys2Proof.Machine

/-- The steps taken at each of the next `k` edges, one list an edge (R83). -/
def trace : Nat → State → List (List Instr)
  | 0, _ => []
  | k + 1, s =>
    match step s with
    | .next t => stepsTaken s :: trace k t
    | .fault _ => []
    | .refused _ => []

/-- The states reachable from a `RESET` by steps, whatever the host drives and the schedule chooses (R37). The state
before the `RESET` may be any state at all (R200). -/
inductive Reachable : State → Prop where
  | reset {s t : State} (hrst : s.ports.rst = true) (h : step s = .next t) : Reachable t
  | edge {s t : State} (hs : Reachable s) (h : step s = .next t) : Reachable t

/-- `u` is the state `k` edges after `s`, where a `START` was taken at the first of them and no `START` or `RESET` at the
others (R157, R167). -/
def InRun (k : Nat) (s u : State) : Prop :=
  stepsTaken s = [.start] ∧ Host.Core.run core k s = .next u ∧
    ∀ e ∈ (trace k s).tail, Instr.start ∉ e ∧ Instr.reset ∉ e

/-- R37 item 1, its two clauses on the flags and `KI`. -/
def PrepFlags (s : State) : Prop :=
  s.ph = .prep → (s.ksDone = true → s.ksLd = true) ∧ (s.ksLd = false → s.ki = 0)

/-- R37 item 2. -/
def JoinedResults (s : State) : Prop :=
  (s.ph = .rounds ∨ s.ph = .final) →
    s.ksLd = true ∧ s.ksDone = true ∧ s.ipDone = true ∧ s.rk = deriveRoundKeys s.keyr

/-- R37 item 3. -/
def RoundsSoFar (s : State) : Prop :=
  s.ph = .rounds →
    (s.l, s.r) = feistelRounds s.rk (split 32 (ipFn s.dinr)).1 (split 32 (ipFn s.dinr)).2 s.ri.toNat

/-- R37 item 4. -/
def BusyNotDone (s : State) : Prop :=
  (s.ph ≠ .idle → s.done = false) ∧ ¬(s.busy = true ∧ s.donePort = true)

/-- R37 item 5. -/
def ResultWhenDone (s : State) : Prop :=
  s.done = true → s.ph = .idle ∧ s.dout = encryptBlock s.dinr s.keyr

/-- The key schedule in progress: after `KS_LOAD`, with `KI` passes made (R123, R124). -/
def KeysSoFar (s : State) : Prop :=
  s.ksLd = true → s.ksDone = false →
    (s.c, s.d) = ((keyPasses s.keyr s.ki.toNat).1, (keyPasses s.keyr s.ki.toNat).2.1) ∧
    ∀ j : Fin 16, j.val < s.ki.toNat → readRk s.rk j = readRk (deriveRoundKeys s.keyr) j

/-- The key schedule complete (R125). -/
def KeysWhenDone (s : State) : Prop :=
  s.ksDone = true →
    s.rk = deriveRoundKeys s.keyr ∧ s.ki = 15 ∧ (s.c, s.d) = ksInit s.keyr

/-- The permuted block in `L`, `R`, until the first round (R152). -/
def BlockWhenDone (s : State) : Prop :=
  s.ph = .prep → s.ipDone = true → (s.l, s.r) = split 32 (ipFn s.dinr)

/-- The halves after round 15 (R163). -/
def RoundsWhenDone (s : State) : Prop :=
  s.ph = .final →
    s.ri = 15 ∧
      (s.l, s.r) = feistelRounds s.rk (split 32 (ipFn s.dinr)).1 (split 32 (ipFn s.dinr)).2 16

/-- R37 items 1 to 5, with what the steps need to keep them. -/
structure Consistent (s : State) : Prop where
  prepFlags : PrepFlags s
  joinedResults : JoinedResults s
  roundsSoFar : RoundsSoFar s
  busyNotDone : BusyNotDone s
  resultWhenDone : ResultWhenDone s
  keysSoFar : KeysSoFar s
  keysWhenDone : KeysWhenDone s
  blockWhenDone : BlockWhenDone s
  roundsWhenDone : RoundsWhenDone s

end Sys2Proof.Machine
end

