-- ==== Sys2Proof/Certificates/Slice0/Obligations.lean ====
section
/-! DEFINITION. The statements for the provers. Each docstring names the rule of spec/ it formalises.

A statement `exec i s = .next { s with … }` gives the result and the frame at once: every field not named keeps its
value (spec/00_scope.md rule R14). There is no memory, so there is nothing to say of one (R15). -/

open Sys2Proof Sys2Proof.Machine

/-! ### Step selection and the clock edge -/

/-- R71, R72: the select word is a view of the state and the ports, `KI` and `RI` are no part of it, and a step is
enabled when `(SEL & mask) == match`, with the masks, matches and agents of the table; a function has no row. -/
def Obligations.SelectWordAndStepTable : Prop :=
  (∀ s : State,
    s.sel.getLsbD 6 = s.ports.rst ∧
    s.sel.getLsbD 5 = (s.ph == .rounds || s.ph == .final) ∧
    s.sel.getLsbD 4 = (s.ph == .prep || s.ph == .final) ∧
    s.sel.getLsbD 3 = s.ksLd ∧ s.sel.getLsbD 2 = s.ksDone ∧ s.sel.getLsbD 1 = s.ipDone ∧
    s.sel.getLsbD 0 = s.ports.start) ∧
  (∀ (s : State) (ki ri : BitVec 4), State.sel { s with ki := ki, ri := ri } = s.sel) ∧
  (∀ sel : BitVec 7,
    (enables sel .reset = true ↔ sel &&& 0x40 = 0x40) ∧
    (enables sel .idle = true ↔ sel &&& 0x71 = 0x00) ∧
    (enables sel .start = true ↔ sel &&& 0x71 = 0x01) ∧
    (enables sel .ksLoad = true ↔ sel &&& 0x7C = 0x10) ∧
    (enables sel .ksRound = true ↔ sel &&& 0x7C = 0x18) ∧
    (enables sel .ipLoad = true ↔ sel &&& 0x72 = 0x10) ∧
    (enables sel .join = true ↔ sel &&& 0x7E = 0x1E) ∧
    (enables sel .round = true ↔ sel &&& 0x7E = 0x2E) ∧
    (enables sel .final = true ↔ sel &&& 0x7E = 0x3E)) ∧
  (∀ (i : Instr) (sel : BitVec 7), enables sel i = true → i ∈ stepRows) ∧
  (stepRows.map Instr.agent =
    [some .drv, some .drv, some .drv, some .ks, some .ks, some .ipu, some .drv, some .drv, some .drv])

/-- R73: the enabled set in every state that is not reserved; it is never empty, and holds at most one step per
agent; a state reachable from a reset is never reserved. -/
def Obligations.EnabledSets : Prop :=
  (∀ s : State, s.reserved = false →
    (s.ports.rst = true → enabledSet s = .enabled [.reset]) ∧
    (s.ports.rst = false →
      (s.ph = .idle → s.ports.start = true → enabledSet s = .enabled [.start]) ∧
      (s.ph = .idle → s.ports.start = false → enabledSet s = .enabled [.idle]) ∧
      (s.ph = .rounds → enabledSet s = .enabled [.round]) ∧
      (s.ph = .final → enabledSet s = .enabled [.final]) ∧
      (s.ph = .prep →
        (s.ksLd = false → s.ipDone = false → enabledSet s = .enabled [.ksLoad, .ipLoad]) ∧
        (s.ksLd = false → s.ipDone = true → enabledSet s = .enabled [.ksLoad]) ∧
        (s.ksLd = true → s.ksDone = false → s.ipDone = false → enabledSet s = .enabled [.ksRound, .ipLoad]) ∧
        (s.ksLd = true → s.ksDone = false → s.ipDone = true → enabledSet s = .enabled [.ksRound]) ∧
        (s.ksLd = true → s.ksDone = true → s.ipDone = false → enabledSet s = .enabled [.ipLoad]) ∧
        (s.ksLd = true → s.ksDone = true → s.ipDone = true → enabledSet s = .enabled [.join])))) ∧
  (∀ (s : State) (is : List Instr), enabledSet s = .enabled is →
    is ≠ [] ∧ is.Pairwise fun i j => i.agent ≠ j.agent) ∧
  (∀ s : State, Reachable s → s.reserved = false)

/-- R74: which states are reserved, and that no run from a reset reaches one; with `rst = 0` the clock edge and every
step fault there; with `rst = 1` reset recovers from any state. -/
def Obligations.ReservedStatesFaultAndResetRecovers : Prop :=
  (∀ s : State, s.reserved = true ↔
    s.ports.rst = false ∧
      ((s.ph = .prep ∧ s.ksLd = false ∧ s.ksDone = true) ∨
       ((s.ph = .rounds ∨ s.ph = .final) ∧ (s.ksLd = false ∨ s.ksDone = false ∨ s.ipDone = false)) ∨
       (s.ph ≠ .idle ∧ s.done = true))) ∧
  (∀ s : State, s.reserved = true →
    step s = .fault .reservedControlState ∧
    ∀ i : Instr, i.agent ≠ none → exec i s = .fault .reservedControlState) ∧
  (∀ s : State, s.ports.rst = true →
    ∃ t, step s = .next t ∧ t.ph = .idle ∧ t.ki = 0 ∧ t.ri = 0 ∧ t.ksLd = false ∧ t.ksDone = false ∧
      t.ipDone = false ∧ t.done = false) ∧
  (∀ s : State, Reachable s → s.reserved = false)

/-- Decode and encode agree (from R70, R72, R73): every word that matches a step's row, whatever its don't-care bits,
decodes to a set with that step in it unless the word is reserved; every step a word decodes to has that word among
its encodings; a function has no word. -/
def Obligations.DecodeEncodeAgree : Prop :=
  (∀ (i : Instr) (fill w : BitVec 7), encodeWith fill i = some w → reservedSel w = false →
    ∃ is, decode w = .enabled is ∧ i ∈ is) ∧
  (∀ (w : BitVec 7) (is : List Instr), decode w = .enabled is →
    reservedSel w = false ∧ ∀ i ∈ is, ∃ fill, encodeWith fill i = some w) ∧
  (∀ (i : Instr) (fill : BitVec 7), encodeWith fill i = none ↔ i.agent = none) ∧
  (∀ w : Nat, 128 ≤ w → decodeWord w = .rejected .notSevenBits)

/-- The select words of 95_test_vectors.md V18, written out, decode to the sets it lists. -/
def Obligations.ListedSelectWordsDecode : Prop :=
  decode 0b0000000 = .enabled [.idle] ∧ decode 0b0000001 = .enabled [.start] ∧
  decode 0b0001110 = .enabled [.idle] ∧ decode 0b0001111 = .enabled [.start] ∧
  decode 0b0010000 = .enabled [.ksLoad, .ipLoad] ∧ decode 0b0010010 = .enabled [.ksLoad] ∧
  decode 0b0011000 = .enabled [.ksRound, .ipLoad] ∧ decode 0b0011011 = .enabled [.ksRound] ∧
  decode 0b0011100 = .enabled [.ipLoad] ∧ decode 0b0011110 = .enabled [.join] ∧
  decode 0b0101110 = .enabled [.round] ∧ decode 0b0111111 = .enabled [.final] ∧
  decode 0b1101111 = .enabled [.reset] ∧ decode 0b0010100 = .rejected .reservedSelection ∧
  decode 0b0101101 = .rejected .reservedSelection

/-- A step runs the decoded instruction (from R73, R210, R211): what the clock edge does, in terms of `exec`, and what
it does around it: the port sample of the edge is used up, a choice only where there was one, the edge counts on. -/
def Obligations.StepRunsTheDecodedSteps : Prop :=
  (∀ s : State, s.reserved = false → enabledSet s = decode s.sel) ∧
  (∀ (s t : State) (i : Instr), enabledSet s = .enabled [i] → exec i s = .next t →
    step s = .next { t with hostInputs := t.hostInputs.tail, edge := t.edge + 1 }) ∧
  (∀ (s t : State) (k p : Instr), enabledSet s = .enabled [k, p] → s.choice = .ksOnly → exec k s = .next t →
    step s = .next { t with
      hostInputs := t.hostInputs.tail, schedule := t.schedule.tail, edge := t.edge + 1 }) ∧
  (∀ (s t : State) (k p : Instr), enabledSet s = .enabled [k, p] → s.choice = .ipuOnly → exec p s = .next t →
    step s = .next { t with
      hostInputs := t.hostInputs.tail, schedule := t.schedule.tail, edge := t.edge + 1 }) ∧
  (∀ (s t u : State) (k p : Instr), enabledSet s = .enabled [k, p] → s.choice = .both → exec k s = .next t →
    exec p t = .next u →
    step s = .next { u with
      hostInputs := u.hostInputs.tail, schedule := u.schedule.tail, edge := u.edge + 1 })

/-- R211, R73: where a `KS` step and `IP_LOAD` are both enabled, taking one after the other gives the same state in
either order, and it is the state in which each has seen the registers as they were before the edge. -/
def Obligations.BothAtOnceEqualsEitherOrder : Prop :=
  ∀ (s : State) (k p : Instr), enabledSet s = .enabled [k, p] →
    ∃ sk sp t : State,
      exec k s = .next sk ∧ exec p s = .next sp ∧
      exec p sk = .next t ∧ exec k sp = .next t ∧
      t = { s with
        c := sk.c, d := sk.d, rk := sk.rk, ki := sk.ki, ksLd := sk.ksLd, ksDone := sk.ksDone
        l := sp.l, r := sp.r, ipDone := sp.ipDone }

/-! ### BitVector Utilities and the boundary encodings -/

/-- R90. -/
def Obligations.PermuteCopiesSourcePositions : Prop :=
  (∀ (n : Nat) (v : BitVec n) (t : List Nat) (s : State), (∀ e ∈ t, 1 ≤ e ∧ e ≤ n) →
    ∃ out : BitVec t.length,
      exec (.permute n v t) s = .next { s with fnOut := [⟨t.length, out⟩] } ∧
      ∀ (i : Nat) (h : i < t.length), out.getMsbD i = v.getMsbD (t[i] - 1)) ∧
  (permute (0b1011 : BitVec 4) [4, 1, 1, 2] : BitVec 4) = 0b1110

/-- R91. -/
def Obligations.RotlMovesPositionsLeft : Prop :=
  (∀ (n : Nat) (v : BitVec n) (k : Nat) (s : State), 1 ≤ n →
    ∃ out : BitVec n,
      exec (.rotl n v k) s = .next { s with fnOut := [⟨n, out⟩] } ∧
      ∀ i < n, out.getMsbD i = v.getMsbD ((i + k) % n)) ∧
  (∀ (n : Nat) (v : BitVec n), rotl v 0 = v ∧ rotl v n = v) ∧
  (∀ (n : Nat) (v : BitVec n) (a b : Nat), rotl (rotl v a) b = rotl v (a + b)) ∧
  rotl (0b1000011 : BitVec 7) 2 = 0b0001110

/-- R92. -/
def Obligations.XorIsBitwise : Prop :=
  (∀ (n : Nat) (a b : BitVec n) (s : State),
    ∃ out : BitVec n,
      exec (.xor n a b) s = .next { s with fnOut := [⟨n, out⟩] } ∧
      ∀ i < n, out.getMsbD i = (a.getMsbD i ^^ b.getMsbD i)) ∧
  (∀ (n : Nat) (a b c : BitVec n),
    xorBits a a = 0 ∧ xorBits a 0 = a ∧ xorBits a b = xorBits b a ∧
    xorBits (xorBits a b) c = xorBits a (xorBits b c) ∧ xorBits (xorBits a b) b = a) ∧
  xorBits (0b0110 : BitVec 4) 0b1100 = 0b1010

/-- R93. -/
def Obligations.ChunkGivesConsecutivePieces : Prop :=
  (∀ (m : Nat) (v : BitVec m) (n : Nat) (s : State), 1 ≤ n →
    ∃ pieces : List Bits,
      exec (.chunk m v n) s = .next { s with fnOut := pieces } ∧
      pieces.length = (m + n - 1) / n ∧
      (∀ (j : Nat) (h : j < pieces.length),
        pieces[j].width = min n (m - j * n) ∧
        ∀ i < min n (m - j * n), pieces[j].val.getMsbD i = v.getMsbD (j * n + i)) ∧
      (pieces.flatMap fun b => positions b.val) = positions v) ∧
  chunk (0b110010001111 : BitVec 12) 6 = [⟨6, 0b110010⟩, ⟨6, 0b001111⟩]

/-- R94, spec/90_conflicts.md C1: the split is contiguous. -/
def Obligations.SplitIsContiguous : Prop :=
  (∀ (h : Nat) (v : BitVec (2 * h)) (s : State),
    ∃ a b : BitVec h,
      exec (.split h v) s = .next { s with fnOut := [⟨h, a⟩, ⟨h, b⟩] } ∧
      (∀ i < h, a.getMsbD i = v.getMsbD i ∧ b.getMsbD i = v.getMsbD (h + i)) ∧
      positions a ++ positions b = positions v) ∧
  split 4 (0b11110000 : BitVec 8) = (0b1111, 0b0000)

/-- R95. -/
def Obligations.ConcatAppendsPositions : Prop :=
  (∀ (p q : Nat) (a : BitVec p) (b : BitVec q) (s : State),
    ∃ out : BitVec (p + q),
      exec (.concat p q a b) s = .next { s with fnOut := [⟨p + q, out⟩] } ∧
      (∀ i < p, out.getMsbD i = a.getMsbD i) ∧ (∀ i < q, out.getMsbD (p + i) = b.getMsbD i)) ∧
  (∀ (p : Nat) (a b : BitVec p), split p (concat a b) = (a, b)) ∧
  concat (0b10 : BitVec 2) (0b011 : BitVec 3) = 0b10011 ∧
  concat (1 : BitVec 1) (0 : BitVec 1) ≠ concat (0 : BitVec 1) (1 : BitVec 1)

/-- R76. -/
def Obligations.HexBitsReadsDigits : Prop :=
  (∀ (cs : List Char) (s : State), cs.all isHexDigit = true →
    ∃ out : BitVec (4 * cs.length),
      exec (.hexbits cs) s = .next { s with fnOut := [⟨4 * cs.length, out⟩] } ∧
      (∀ (k : Nat) (h : k < cs.length), ∀ j < 4,
        out.getMsbD (4 * k + j) = (BitVec.ofNat 4 (hexValue cs[k])).getMsbD j) ∧
      out.toNat = cs.foldl (fun x ch => 16 * x + hexValue ch) 0) ∧
  ['0', '1', '2', '3', '4', '5', '6', '7', '8', '9', 'A', 'B', 'C', 'D', 'E', 'F'].map hexValue =
    [0, 1, 2, 3, 4, 5, 6, 7, 8, 9, 10, 11, 12, 13, 14, 15] ∧
  ['a', 'b', 'c', 'd', 'e', 'f'].map hexValue = [10, 11, 12, 13, 14, 15] ∧
  hexBits ['1', '3'] = 0b00010011

/-- R77; a character above 127 stands for its code, the model's choice (log 16). -/
def Obligations.AsciiBitsReadsCharacters : Prop :=
  (∀ (cs : List Char) (s : State), cs.all isByteChar = true →
    ∃ out : BitVec (8 * cs.length),
      exec (.asciibits cs) s = .next { s with fnOut := [⟨8 * cs.length, out⟩] } ∧
      ∀ (k : Nat) (h : k < cs.length), ∀ j < 8,
        out.getMsbD (8 * k + j) = (BitVec.ofNat 8 cs[k].toNat).getMsbD j) ∧
  asciiBits ['G', 'I', 'A', 'C', 'H', 'A', 'N', 'A'] = 0x4749414348414E41

/-- From R78: a string of 8-bit characters and the same bytes written as two hexadecimal digits each are the same
vector. The digits are written in upper case (`HexBitsReadsDigits` says that either case counts); a character above 127
stands for its code, the model's choice (log 16). -/
def Obligations.TextFormsAgree : Prop :=
  ∀ cs : List Char, cs.all isByteChar = true →
    ((cs.flatMap fun ch => [hexDigit (ch.toNat / 16), hexDigit (ch.toNat % 16)]).all isHexDigit = true) ∧
    (⟨_, hexBits (cs.flatMap fun ch => [hexDigit (ch.toNat / 16), hexDigit (ch.toNat % 16)])⟩ : Bits) =
      ⟨_, asciiBits cs⟩

/-- R96 (a) and (b); (c) is the spec's own inference, see `LawsTheSpecInfersOfTheFunctions`. -/
def Obligations.PermuteLaws : Prop :=
  (∀ (n : Nat) (v : BitVec n) (t : List Nat), (∀ e ∈ t, 1 ≤ e ∧ e ≤ n) →
    ∀ i < t.length, ∃ j < n, (permute v t : BitVec t.length).getMsbD i = v.getMsbD j) ∧
  (∀ (n : Nat) (v : BitVec n) (t u : List Nat), t.length = n → u.length = n →
    (∀ e ∈ t, 1 ≤ e ∧ e ≤ n) → (∀ e ∈ u, 1 ≤ e ∧ e ≤ n) →
    (∀ i < n, u.getD (t.getD i 0 - 1) 0 = i + 1) →
    (permute (permute v t : BitVec n) u : BitVec n) = v ∧ (permute (permute v u : BitVec n) t : BitVec n) = v) ∧
  (∀ x ∈ [(64, Config.ip), (64, Config.fp), (32, Config.p)],
    x.2.length = x.1 ∧ x.2.Nodup ∧ ∀ e ∈ x.2, 1 ≤ e ∧ e ≤ x.1) ∧
  (Config.pc1.length ≠ 64 ∧ Config.pc2.length ≠ 56 ∧ Config.e.length ≠ 32) ∧
  (∀ i < 64, Config.fp.getD (Config.ip.getD i 0 - 1) 0 = i + 1)

/-- R116: the constant tables pass the structural checks, the ranges among them (no `InvalidTableEntry`, R182). -/
def Obligations.TablesPassStructuralChecks : Prop :=
  (Config.shift.length = 16 ∧ Config.pc1.length = 56 ∧ Config.pc2.length = 48 ∧ Config.ip.length = 64 ∧
    Config.fp.length = 64 ∧ Config.e.length = 48 ∧ Config.p.length = 32 ∧ Config.sBox.length = 8 ∧
    ∀ box ∈ Config.sBox, box.length = 4 ∧ ∀ row ∈ box, row.length = 16) ∧
  (tableInRange 64 Config.pc1 = true ∧ tableInRange 56 Config.pc2 = true ∧ tableInRange 64 Config.ip = true ∧
    tableInRange 64 Config.fp = true ∧ tableInRange 32 Config.e = true ∧ tableInRange 32 Config.p = true ∧
    (∀ x ∈ Config.shift, x = 1 ∨ x = 2) ∧ ∀ box ∈ Config.sBox, ∀ row ∈ box, ∀ x ∈ row, x ≤ 15) ∧
  (Config.ip.Nodup ∧ Config.fp.Nodup ∧ Config.p.Nodup ∧
    ∀ i < 64, tableRead Config.fp (tableRead Config.ip i - 1) = i + 1) ∧
  (Config.pc1.Nodup ∧ (∀ x ∈ Config.pc1, x % 8 ≠ 0) ∧ Config.pc2.Nodup ∧
    ((List.range 57).filter fun x => decide (1 ≤ x) && !Config.pc2.contains x) = [9, 18, 22, 25, 35, 38, 43, 54]) ∧
  (∀ x < 32, x + 1 ∈ Config.e) ∧
  (∀ box ∈ Config.sBox, ∀ row ∈ box, row.Nodup) ∧
  (Config.shift.sum = 28 ∧ Config.pc1.sum = 1792 ∧ Config.pc2.sum = 1352 ∧ Config.ip.sum = 2080 ∧
    Config.fp.sum = 2080 ∧ Config.e.sum = 792 ∧ Config.p.sum = 528 ∧
    ∀ box ∈ Config.sBox, ∀ row ∈ box, row.sum = 120)

/-- From R17: a function is pure and total over correctly sized inputs: executed by itself it answers the same result in
every state and changes nothing but `fnOut`. That `fnOut` holds the result is the model's choice (log 7), and so is the
refusal of operands outside a precondition (R16 makes them a contract violation; log 15). That a table is well formed for
every width that holds its entries is the model's choice too (log 20). -/
def Obligations.FunctionsArePureAndTotal : Prop :=
  (∀ i : Instr, i.agent = none → i.wellFormed = true →
    ∃ out : List Bits, ∀ s : State, exec i s = .next { s with fnOut := out }) ∧
  (∀ i : Instr, i.wellFormed = false → i.agent = none ∧ ∃ r : Refusal, ∀ s : State, exec i s = .refused r) ∧
  (∀ (n : Nat) (v : BitVec n) (t : List Nat) (s : State), (∃ e ∈ t, e = 0 ∨ n < e) →
    exec (.permute n v t) s = .refused .invalidTableEntry)

/-- The model's own field `fnOut` does not touch the machine (log 7): a step does the same whatever `fnOut` holds, and
leaves it. -/
def Obligations.StepsIgnoreFunctionResults : Prop :=
  (∀ (i : Instr) (s t : State) (out : List Bits), i.agent ≠ none → exec i s = .next t →
    t.fnOut = s.fnOut ∧ exec i { s with fnOut := out } = .next { t with fnOut := out }) ∧
  (∀ (s t : State) (out : List Bits), step s = .next t →
    t.fnOut = s.fnOut ∧ step { s with fnOut := out } = .next { t with fnOut := out })

/-! ### Key schedule -/

/-- R120. -/
def Obligations.KsInitSelectsHalves : Prop :=
  (∀ (key : Block) (s : State),
    ∃ c0 d0 : HalfKey,
      exec (.ksInit key) s = .next { s with fnOut := [⟨28, c0⟩, ⟨28, d0⟩] } ∧ ksInit key = (c0, d0) ∧
      ∀ i < 28, c0.getMsbD i = key.getMsbD (tableRead Config.pc1 i - 1) ∧
        d0.getMsbD i = key.getMsbD (tableRead Config.pc1 (28 + i) - 1)) ∧
  (∀ key key' : Block, (∀ i < 64, i % 8 ≠ 7 → key.getMsbD i = key'.getMsbD i) → ksInit key = ksInit key') ∧
  ksInit 0 = (0, 0) ∧ ksInit (BitVec.allOnes 64) = (BitVec.allOnes 28, BitVec.allOnes 28) ∧
  ksInit 0x133457799BBCDFF1 = (0xF0CCAAF, 0x556678F)

/-- R121. -/
def Obligations.KsNextRotatesThenSelects : Prop :=
  (∀ (c d : HalfKey) (i : Fin 16) (s : State),
    ∃ (c' d' : HalfKey) (k : RoundKey),
      exec (.ksNext c d i) s = .next { s with fnOut := [⟨28, c'⟩, ⟨28, d'⟩, ⟨48, k⟩] } ∧
      ksNext c d i = (c', d', k) ∧
      (∀ j < 28, c'.getMsbD j = c.getMsbD ((j + tableRead Config.shift i.val) % 28) ∧
        d'.getMsbD j = d.getMsbD ((j + tableRead Config.shift i.val) % 28)) ∧
      (∀ j < 24, k.getMsbD j = c'.getMsbD (tableRead Config.pc2 j - 1)) ∧
      (∀ j < 24, k.getMsbD (24 + j) = d'.getMsbD (tableRead Config.pc2 (24 + j) - 1 - 28))) ∧
  ksNext 0xF0CCAAF 0x556678F 0 = (0xE19955F, 0xAACCF1E, 0x1B02EFFC7072)

/-- R122; what the spec infers there (the total rotations, the constant keys) is in
`LawsTheSpecInfersOfTheFunctions`. -/
def Obligations.DeriveRoundKeysRunsSixteenPasses : Prop :=
  (∀ (key : Block) (s : State),
    ∃ (ks : RoundKeys) (c d : Nat → HalfKey),
      exec (.deriveRoundKeys key) s = .next { s with fnOut := ks.toList.map fun k => ⟨48, k⟩ } ∧
      ks = deriveRoundKeys key ∧
      (c 0, d 0) = ksInit key ∧
      (∀ i : Fin 16, ksNext (c i.val) (d i.val) i = (c (i.val + 1), d (i.val + 1), readRk ks i))) ∧
  (∀ key key' : Block, (∀ i < 64, i % 8 ≠ 7 → key.getMsbD i = key'.getMsbD i) →
    deriveRoundKeys key = deriveRoundKeys key') ∧
  readRk (deriveRoundKeys 0x133457799BBCDFF1) 0 = 0x1B02EFFC7072 ∧
  readRk (deriveRoundKeys 0x133457799BBCDFF1) 15 = 0xCB3D8B0E17F5

/-! ### Substitution and round -/

/-- R130. -/
def Obligations.SboxLooksUpRowAndColumn : Prop :=
  (∀ (b : Fin 8) (ch : BitVec 6) (s : State),
    ∃ out : BitVec 4,
      exec (.sbox b ch) s = .next { s with fnOut := [⟨4, out⟩] } ∧
      out.toNat = sBoxRead b.val (2 * (ch.getMsbD 0).toNat + (ch.getMsbD 5).toNat)
        (8 * (ch.getMsbD 1).toNat + 4 * (ch.getMsbD 2).toNat + 2 * (ch.getMsbD 3).toNat +
          (ch.getMsbD 4).toNat) ∧
      out.toNat = sBoxRead b.val (2 * (ch.toNat / 32) + ch.toNat % 2) (ch.toNat / 2 % 16)) ∧
  (∀ (b : Fin 8) (y : BitVec 4),
    ((List.range 64).filter fun x => sbox b (BitVec.ofNat 6 x) == y).length = 4) ∧
  sbox 0 0b000000 = 0b1110 ∧ sbox 0 0b000001 = 0b0000 ∧ sbox 0 0b100000 = 0b0100 ∧ sbox 0 0b111111 = 0b1101 ∧
  sbox 0 0b011110 = 0b0111 ∧ sbox 0 0b011000 = 0b0101

/-- R131; the two constant cases the spec infers are in `LawsTheSpecInfersOfTheFunctions`. -/
def Obligations.SubstAppliesTheEightBoxes : Prop :=
  (∀ (v : RoundKey) (s : State),
    ∃ out : Half,
      exec (.subst v) s = .next { s with fnOut := [⟨32, out⟩] } ∧ subst v = out ∧
      ∀ (b : Fin 8), ∀ j < 4,
        out.getMsbD (4 * b.val + j) = (sbox b (sub v (6 * b.val) 6)).getMsbD j) ∧
  subst 0x6117BA866527 = 0x5C82B597

/-- R140. -/
def Obligations.ExpandCopiesByTableE : Prop :=
  (∀ (r : Half) (s : State),
    ∃ out : RoundKey,
      exec (.expand r) s = .next { s with fnOut := [⟨48, out⟩] } ∧ expand r = out ∧
      (∀ i < 48, out.getMsbD i = r.getMsbD (tableRead Config.e i - 1)) ∧
      ∀ (b : Fin 8), ∀ j < 6, out.getMsbD (6 * b.val + j) = r.getMsbD ((4 * b.val + j + 31) % 32)) ∧
  expand 0 = 0 ∧ expand (BitVec.allOnes 32) = BitVec.allOnes 48 ∧ expand 0x80000000 = 0x400000000001 ∧
  expand 0x00000001 = 0x800000000002 ∧ expand 0xF0AAF0AA = 0x7A15557A1555

/-- R141. -/
def Obligations.FeistelFComposesInOrder : Prop :=
  (∀ (r : Half) (k : RoundKey) (s : State),
    ∃ out : Half,
      exec (.feistelF r k) s = .next { s with fnOut := [⟨32, out⟩] } ∧ feistelF r k = out ∧
      ∀ i < 32, out.getMsbD i = (subst (xorBits (expand r) k)).getMsbD (tableRead Config.p i - 1)) ∧
  (∀ (r r' : Half) (k k' : RoundKey), xorBits (expand r) k = xorBits (expand r') k' →
    feistelF r k = feistelF r' k') ∧
  feistelF 0 0 = 0xD8D8DBBC ∧ feistelF (BitVec.allOnes 32) (BitVec.allOnes 48) = 0xD8D8DBBC ∧
  feistelF (BitVec.allOnes 32) 0 = 0x38DBF9CB ∧ feistelF 0xF0AAF0AA 0x1B02EFFC7072 = 0x234AA9BB

/-- R142; the inverse, which the spec infers, is in `LawsTheSpecInfersOfTheFunctions`. -/
def Obligations.RoundFnCrossesOver : Prop :=
  (∀ (l r : Half) (k : RoundKey) (s : State),
    exec (.roundFn l r k) s = .next { s with fnOut := [⟨32, r⟩, ⟨32, xorBits l (feistelF r k)⟩] } ∧
    roundFn l r k = (r, xorBits l (feistelF r k))) ∧
  roundFn 0 0 0 = (0, 0xD8D8DBBC) ∧
  roundFn 0xCC00CCFF 0xF0AAF0AA 0x1B02EFFC7072 = (0xF0AAF0AA, 0xEF4A6544)

/-! ### Initial and final permutation, the cipher -/

/-- R150. -/
def Obligations.IpFnPermutesByIp : Prop :=
  (∀ (b : Block) (s : State),
    ∃ out : Block,
      exec (.ipFn b) s = .next { s with fnOut := [⟨64, out⟩] } ∧ ipFn b = out ∧
      (∀ i < 64, out.getMsbD i = b.getMsbD (tableRead Config.ip i - 1)) ∧
      (positions out).count true = (positions b).count true) ∧
  ipFn 0 = 0 ∧ ipFn (BitVec.allOnes 64) = BitVec.allOnes 64 ∧
  ipFn 0x8000000000000000 = 0x0000000001000000 ∧ ipFn 0x0000000000000001 = 0x0000008000000000 ∧
  ipFn 0x0123456789ABCDEF = 0xCC00CCFFF0AAF0AA

/-- R151. -/
def Obligations.FpFnPermutesByFp : Prop :=
  (∀ (b : Block) (s : State),
    ∃ out : Block,
      exec (.fpFn b) s = .next { s with fnOut := [⟨64, out⟩] } ∧ fpFn b = out ∧
      ∀ i < 64, out.getMsbD i = b.getMsbD (tableRead Config.fp i - 1)) ∧
  Function.Bijective fpFn ∧
  fpFn 0 = 0 ∧ fpFn (BitVec.allOnes 64) = BitVec.allOnes 64 ∧
  fpFn 0x8000000000000000 = 0x0000000000000040 ∧ fpFn 0x0000000000000001 = 0x0200000000000000 ∧
  fpFn 0x0A4CD99543423234 = 0x85E813540F0AB405

/-- What the spec marks as its own inference in R96 (c), R122, R131, R142, R153 and R155: `PERMUTE` distributes over
`XOR`; the total rotations, which come full circle; the constant keys and vectors; `ROUND_FN`, the two block permutations
and the cipher can be undone. -/
def Obligations.LawsTheSpecInfersOfTheFunctions : Prop :=
  (∀ (n : Nat) (a b : BitVec n) (t : List Nat),
    (permute (xorBits a b) t : BitVec t.length) = xorBits (permute a t) (permute b t)) ∧
  (∀ (key : Block) (i : Fin 16),
    (keyPasses key (i.val + 1)).1 =
      rotl (ksInit key).1 ([1, 2, 4, 6, 8, 10, 12, 14, 15, 17, 19, 21, 23, 25, 27, 28].getD i.val 0) ∧
    (keyPasses key (i.val + 1)).2.1 =
      rotl (ksInit key).2 ([1, 2, 4, 6, 8, 10, 12, 14, 15, 17, 19, 21, 23, 25, 27, 28].getD i.val 0)) ∧
  (∀ key : Block, ((keyPasses key 16).1, (keyPasses key 16).2.1) = ksInit key) ∧
  (∀ i : Fin 16, readRk (deriveRoundKeys 0) i = 0 ∧
    readRk (deriveRoundKeys (BitVec.allOnes 64)) i = BitVec.allOnes 48) ∧
  (subst 0 = 0xEFA72C4D ∧ subst (BitVec.allOnes 48) = 0xD9CE3DCB) ∧
  (∀ (l r l' r' : Half) (k : RoundKey), roundFn l r k = (l', r') →
    (l, r) = (xorBits r' (feistelF l' k), l')) ∧
  (∀ b : Block, fpFn (ipFn b) = b ∧ ipFn (fpFn b) = b) ∧
  (∀ key : Block, Function.Bijective fun pt => encryptBlock pt key)

/-- R155; the bijection, which the spec infers, is in `LawsTheSpecInfersOfTheFunctions`. -/
def Obligations.EncryptBlockRunsThePipeline : Prop :=
  (∀ (pt key : Block) (s : State),
    ∃ (out : Block) (l r : Nat → Half),
      exec (.encryptBlock pt key) s = .next { s with fnOut := [⟨64, out⟩] } ∧ encryptBlock pt key = out ∧
      (l 0, r 0) = split 32 (ipFn pt) ∧
      (∀ i : Fin 16, (l (i.val + 1), r (i.val + 1)) =
        roundFn (l i.val) (r i.val) (readRk (deriveRoundKeys key) i)) ∧
      out = fpFn (r 16 ++ l 16)) ∧
  (∀ pt key key' : Block, (∀ i < 64, i % 8 ≠ 7 → key.getMsbD i = key'.getMsbD i) →
    encryptBlock pt key = encryptBlock pt key') ∧
  encryptBlock 0x0123456789ABCDEF 0x133457799BBCDFF1 = 0x85E813540F0AB405 ∧
  fpFn 0x434232340A4CD995 = 0x4AD423A80F05780A

/-- 95_test_vectors.md V11: complementing key and block complements the ciphertext, for every key and block. -/
def Obligations.ComplementedInputsComplementTheCiphertext : Prop :=
  ∀ pt key : Block, encryptBlock (~~~pt) (~~~key) = ~~~(encryptBlock pt key)

/-! ### The steps -/

/-- R200: `RESET` is taken whenever `rst = 1`, in every state, alone; it clears the control state; of the data
registers nothing is said (they are `UNSPEC`, R38); the model's own fields but the index of the free values keep their
values. -/
def Obligations.ResetStep : Prop :=
  ∀ s : State,
    (s.ports.rst = true →
      ∃ t, exec .reset s = .next t ∧ enabledSet s = .enabled [.reset] ∧
        t.ph = .idle ∧ t.ki = 0 ∧ t.ri = 0 ∧ t.ksLd = false ∧ t.ksDone = false ∧ t.ipDone = false ∧
        t.done = false ∧ t.busy = false ∧ t.donePort = false ∧ t.blockOut = none ∧
        t.hostInputs = s.hostInputs ∧ t.schedule = s.schedule ∧ t.edge = s.edge ∧ t.fnOut = s.fnOut) ∧
    (s.ports.rst = false → ∀ t, exec .reset s ≠ .next t)

/-- R201: `RESET` is idempotent; holding `rst = 1` for any number of edges, from any state, gives the reset state in
every specified component. -/
def Obligations.HoldingResetGivesTheResetState : Prop :=
  ∀ (n : Nat) (s : State), n + 1 ≤ s.hostInputs.length → (∀ p ∈ s.hostInputs.take (n + 1), p.rst = true) →
    ∃ t, Host.Core.run core (n + 1) s = .next t ∧
      t.ph = .idle ∧ t.ki = 0 ∧ t.ri = 0 ∧ t.ksLd = false ∧ t.ksDone = false ∧ t.ipDone = false ∧
      t.done = false ∧ t.hostInputs = s.hostInputs.drop (n + 1)

/-- R161; what follows an edge besides the step (the port sample used up, the edge counted) is the model's own
(log 1, 6). -/
def Obligations.IdleStep : Prop :=
  (∀ s : State, s.ports.rst = false → s.ph = .idle → s.ports.start = false → exec .idle s = .next s) ∧
  (∀ s t : State, exec .idle s = .next t → s.ports.rst = false ∧ s.ph = .idle ∧ s.ports.start = false) ∧
  (∀ (n : Nat) (s : State), s.ph = .idle → n ≤ s.hostInputs.length →
    (∀ p ∈ s.hostInputs.take n, p.rst = false ∧ p.start = false) →
    ∃ t, Host.Core.run core n s = .next t ∧
      t = { s with hostInputs := s.hostInputs.drop n, edge := s.edge + n } ∧
      t.donePort = s.donePort ∧ t.blockOut = s.blockOut)

/-- R160, the fork after it and the only reader of `key_in` and `block_in` included. -/
def Obligations.StartStep : Prop :=
  (∀ s : State, s.ports.rst = false → s.ph = .idle → s.ports.start = true →
    exec .start s = .next { s with
      keyr := s.ports.keyIn, dinr := s.ports.blockIn, ksLd := false, ksDone := false, ipDone := false
      done := false, ki := 0, ri := 0, ph := .prep }) ∧
  (∀ s t : State, exec .start s = .next t → s.ports.rst = false ∧ s.ph = .idle ∧ s.ports.start = true) ∧
  (∀ s t : State, exec .start s = .next t →
    t.busy = true ∧ t.donePort = false ∧ t.blockOut = none ∧ t.ph.code = 0b01 ∧
      enabledSet t = .enabled [.ksLoad, .ipLoad]) ∧
  (∀ (s : State) (p q : Ports) (ps : List Ports), s.hostInputs = p :: ps → q.rst = p.rst → q.start = p.start →
    Instr.start ∉ stepsTaken s → step { s with hostInputs := q :: ps } = step s)

/-- R123, and that it is taken once in a run, before any `KS_ROUND`; in `PREP` with `DONE = 1` the state is reserved (R74). -/
def Obligations.KsLoadStep : Prop :=
  (∀ s : State, s.ports.rst = false → s.ph = .prep → s.ksLd = false → s.ksDone = false → s.done = false →
    exec .ksLoad s = .next { s with c := (ksInit s.keyr).1, d := (ksInit s.keyr).2, ksLd := true }) ∧
  (∀ s t : State, exec .ksLoad s = .next t →
    s.ports.rst = false ∧ s.ph = .prep ∧ s.ksLd = false ∧ s.ksDone = false) ∧
  (∀ s t : State, exec .ksLoad s = .next t → s.keyr = 0x133457799BBCDFF1 →
    t.c = 0xF0CCAAF ∧ t.d = 0x556678F ∧ t.ksLd = true) ∧
  (∀ (k : Nat) (s u : State), InRun k s u →
    (Instr.ksLoad ∈ stepsTaken u → u.ki = 0 ∧ (trace k s).flatten.count .ksLoad = 0) ∧
    (Instr.ksRound ∈ stepsTaken u → (trace k s).flatten.count .ksLoad = 1) ∧
    (Instr.final ∈ (trace k s).flatten → (trace k s).flatten.count .ksLoad = 1))

/-- R124, and that a run takes it sixteen times, with `KI` in order, and no `KS` step afterwards; in `PREP` with `DONE = 1` the state is reserved (R74). -/
def Obligations.KsRoundStep : Prop :=
  (∀ (s : State) (c d : HalfKey) (k : RoundKey),
    s.ports.rst = false → s.ph = .prep → s.ksLd = true → s.ksDone = false → s.done = false →
    ksNext s.c s.d (counterIndex s.ki) = (c, d, k) →
    ∃ t, exec .ksRound s = .next t ∧
      t = { s with c := c, d := d, rk := t.rk, ki := t.ki, ksDone := t.ksDone } ∧
      (∀ j : Fin 16, readRk t.rk j = if j.val = s.ki.toNat then k else readRk s.rk j) ∧
      (s.ki = 15 → t.ki = 15 ∧ t.ksDone = true) ∧
      (s.ki ≠ 15 → t.ki = s.ki + 1 ∧ t.ksDone = false)) ∧
  (∀ s t : State, exec .ksRound s = .next t →
    s.ports.rst = false ∧ s.ph = .prep ∧ s.ksLd = true ∧ s.ksDone = false) ∧
  (∀ s t : State, exec .ksRound s = .next t → s.c = 0xF0CCAAF → s.d = 0x556678F → s.ki = 0 →
    t.c = 0xE19955F ∧ t.d = 0xAACCF1E ∧ readRk t.rk 0 = 0x1B02EFFC7072 ∧ t.ki = 1 ∧ t.ksDone = false) ∧
  (∀ (k : Nat) (s u : State), InRun k s u →
    (Instr.ksRound ∈ stepsTaken u → u.ki.toNat = (trace k s).flatten.count .ksRound) ∧
    (Instr.final ∈ (trace k s).flatten → (trace k s).flatten.count .ksRound = 16)) ∧
  (∀ s t : State, s.ksDone = true →
    Instr.ksLoad ∉ stepsTaken s ∧ Instr.ksRound ∉ stepsTaken s ∧
    (step s = .next t → Instr.start ∉ stepsTaken s → Instr.reset ∉ stepsTaken s → t.ksDone = true))

/-- R152, and that a run takes it once and `L`, `R` then wait for the first `ROUND`; in `PREP` with `KS_DONE` but not `KS_LD`, or with `DONE = 1`, the state is reserved (R74). -/
def Obligations.IpLoadStep : Prop :=
  (∀ s : State, s.ports.rst = false → s.ph = .prep → s.ipDone = false →
    (s.ksDone = true → s.ksLd = true) → s.done = false →
    exec .ipLoad s = .next { s with
      l := (split 32 (ipFn s.dinr)).1, r := (split 32 (ipFn s.dinr)).2, ipDone := true }) ∧
  (∀ s t : State, exec .ipLoad s = .next t → s.ports.rst = false ∧ s.ph = .prep ∧ s.ipDone = false) ∧
  (∀ s t : State, exec .ipLoad s = .next t → s.dinr = 0x0123456789ABCDEF →
    t.l = 0xCC00CCFF ∧ t.r = 0xF0AAF0AA ∧ t.ipDone = true) ∧
  (∀ (k : Nat) (s u : State), InRun k s u →
    (Instr.ipLoad ∈ stepsTaken u → (trace k s).flatten.count .ipLoad = 0) ∧
    (Instr.final ∈ (trace k s).flatten → (trace k s).flatten.count .ipLoad = 1)) ∧
  (∀ s t : State, step s = .next t → s.ipDone = true → Instr.round ∉ stepsTaken s →
    Instr.start ∉ stepsTaken s → Instr.reset ∉ stepsTaken s → t.l = s.l ∧ t.r = s.r ∧ t.ipDone = true)

/-- R162, and what `JOIN` finds in a state a run reaches; in `PREP` with `DONE = 1` the state is reserved (R74). -/
def Obligations.JoinStep : Prop :=
  (∀ s : State, s.ports.rst = false → s.ph = .prep → s.ksLd = true → s.ksDone = true → s.ipDone = true →
    s.done = false → exec .join s = .next { s with ri := 0, ph := .rounds }) ∧
  (∀ s t : State, exec .join s = .next t →
    s.ports.rst = false ∧ s.ph = .prep ∧ s.ksLd = true ∧ s.ksDone = true ∧ s.ipDone = true) ∧
  (∀ s t : State, exec .join s = .next t → enabledSet s = .enabled [.join]) ∧
  (∀ s : State, s.ph = .prep → Instr.round ∉ stepsTaken s) ∧
  (∀ s t : State, step s = .next t → s.ph = .prep → t.ph ≠ .prep →
    stepsTaken s = [.join] ∨ stepsTaken s = [.reset]) ∧
  (∀ s t : State, Reachable s → exec .join s = .next t →
    (t.l, t.r) = split 32 (ipFn t.dinr) ∧ t.rk = deriveRoundKeys t.keyr ∧
    (t.keyr = 0x133457799BBCDFF1 → t.dinr = 0x0123456789ABCDEF →
      t.l = 0xCC00CCFF ∧ t.r = 0xF0AAF0AA ∧ readRk t.rk 0 = 0x1B02EFFC7072 ∧ readRk t.rk 15 = 0xCB3D8B0E17F5))

/-- R163, and that a run takes it sixteen times, with `RI` in order; in `ROUNDS` with a flag 0, or with `DONE = 1`, the state is reserved (R74). -/
def Obligations.RoundStep : Prop :=
  (∀ s : State, s.ports.rst = false → s.ph = .rounds → s.ksLd = true → s.ksDone = true → s.ipDone = true →
    s.done = false →
    exec .round s = .next { s with
      l := s.r
      r := xorBits s.l (feistelF s.r (readRk s.rk (counterIndex s.ri)))
      ri := if s.ri = 15 then 15 else s.ri + 1
      ph := if s.ri = 15 then .final else .rounds }) ∧
  (∀ s t : State, exec .round s = .next t → s.ports.rst = false ∧ s.ph = .rounds) ∧
  (∀ s t : State, exec .round s = .next t → s.l = 0xCC00CCFF → s.r = 0xF0AAF0AA → s.ri = 0 →
    readRk s.rk 0 = 0x1B02EFFC7072 → t.l = 0xF0AAF0AA ∧ t.r = 0xEF4A6544 ∧ t.ri = 1) ∧
  (∀ (k : Nat) (s u : State), InRun k s u →
    (Instr.round ∈ stepsTaken u → u.ri.toNat = (trace k s).flatten.count .round) ∧
    (Instr.final ∈ (trace k s).flatten → (trace k s).flatten.count .round = 16))

/-- R164, and that `L`, `R` are then the halves after round 15; in `FINAL` with a flag 0, or with `DONE = 1`, the state is reserved (R74). -/
def Obligations.FinalStep : Prop :=
  (∀ s : State, s.ports.rst = false → s.ph = .final → s.ksLd = true → s.ksDone = true → s.ipDone = true →
    s.done = false →
    exec .final s = .next { s with dout := fpFn (s.r ++ s.l), done := true, ph := .idle }) ∧
  (∀ s t : State, exec .final s = .next t → s.ports.rst = false ∧ s.ph = .final) ∧
  (∀ s t : State, exec .final s = .next t →
    t.busy = false ∧ t.donePort = true ∧ t.blockOut = some (fpFn (s.r ++ s.l))) ∧
  (∀ s t : State, exec .final s = .next t → s.l = 0x43423234 → s.r = 0x0A4CD995 →
    t.dout = 0x85E813540F0AB405) ∧
  (∀ s : State, Reachable s → s.ph = .final →
    (s.l, s.r) = feistelRounds (deriveRoundKeys s.keyr) (split 32 (ipFn s.dinr)).1 (split 32 (ipFn s.dinr)).2 16) ∧
  fpFn ((0x43423234 : Half) ++ (0x0A4CD995 : Half)) = 0x4AD423A80F05780A

/-- The model's choice (log 8; R72 says only when a step is enabled): a step executed in a state that is not reserved
and does not enable it is refused by name; a step that is enabled has a next state. -/
def Obligations.StepsOutsideTheEnabledSetAreRefused : Prop :=
  ∀ (i : Instr) (s : State) (is : List Instr), i.agent ≠ none → enabledSet s = .enabled is →
    (i ∈ is → ∃ t, exec i s = .next t) ∧ (i ∉ is → exec i s = .refused .notEnabled)

/-! ### The ports -/

/-- R166. -/
def Obligations.StartWhileBusyIsIgnored : Prop :=
  (∀ (s : State) (p q : Ports) (ps : List Ports), s.ph ≠ .idle → s.hostInputs = p :: ps → p.rst = false →
    q.rst = false → step { s with hostInputs := q :: ps } = step s) ∧
  (∀ s : State, s.ph ≠ .idle → Instr.start ∉ stepsTaken s) ∧
  (∀ s t : State, s.ports.rst = false → s.ph = .final → step s = .next t →
    t.ports.rst = false → t.ports.start = true →
    ∃ u, step t = .next u ∧ stepsTaken t = [.start] ∧ u.keyr = t.ports.keyIn ∧ u.dinr = t.ports.blockIn ∧
      u.ph = .prep)

/-- R186: the priority of simultaneous events. -/
def Obligations.ResetBeatsStart : Prop :=
  (∀ s : State, s.ports.rst = true → stepsTaken s = [.reset]) ∧
  (∀ s : State, s.ports.rst = false → s.ports.start = true → s.ph = .idle → stepsTaken s = [.start]) ∧
  (∀ (s : State) (p : Ports) (ps : List Ports), s.hostInputs = p :: ps → p.rst = false → p.start = true →
    s.ph ≠ .idle →
    stepsTaken s = stepsTaken { s with hostInputs := { p with start := false } :: ps } ∧
    step s = step { s with hostInputs := { p with start := false } :: ps })

/-- R33: the output ports, functions of the state; in a reachable state `busy` and `done` are never both 1. -/
def Obligations.OutputPorts : Prop :=
  (∀ s : State,
    (s.busy = true ↔ s.ph ≠ .idle) ∧ s.donePort = s.done ∧
    (s.done = true → s.blockOut = some s.dout) ∧ (s.done = false → s.blockOut = none)) ∧
  (∀ s : State, Reachable s → ¬(s.busy = true ∧ s.donePort = true))

/-! ### The sequencer's registers over any edge -/

/-- R27: the codes of `PH`, the steps each phase enables, and its only moves. -/
def Obligations.PhaseMovesInOrder : Prop :=
  (Phase.idle.code = 0b00 ∧ Phase.prep.code = 0b01 ∧ Phase.rounds.code = 0b10 ∧ Phase.final.code = 0b11) ∧
  (∀ (s : State) (is : List Instr), s.ports.rst = false → enabledSet s = .enabled is →
    (s.ph = .idle → is = if s.ports.start then [.start] else [.idle]) ∧
    (s.ph = .prep → ∀ i ∈ is, i ∈ [Instr.ksLoad, .ksRound, .ipLoad, .join]) ∧
    (s.ph = .rounds → is = [.round]) ∧
    (s.ph = .final → is = [.final])) ∧
  (∀ s t : State, step s = .next t →
    (s.ports.rst = true → t.ph = .idle) ∧
    (s.ports.rst = false →
      (s.ph = .idle → t.ph = if s.ports.start then .prep else .idle) ∧
      (s.ph = .prep → t.ph = if s.ksLd && s.ksDone && s.ipDone then .rounds else .prep) ∧
      (s.ph = .rounds → t.ph = if s.ri = 15 then .final else .rounds) ∧
      (s.ph = .final → t.ph = .idle)))

/-- R28, R29: what moves the two counters, which never wrap. -/
def Obligations.CountersNeverWrap : Prop :=
  ∀ s t : State, step s = .next t →
    ((Instr.reset ∈ stepsTaken s ∨ Instr.start ∈ stepsTaken s) → t.ki = 0 ∧ t.ri = 0) ∧
    (Instr.join ∈ stepsTaken s → t.ri = 0) ∧
    (Instr.ksRound ∈ stepsTaken s →
      (s.ki = 15 → t.ki = 15 ∧ t.ksDone = true) ∧ (s.ki ≠ 15 → t.ki.toNat = s.ki.toNat + 1)) ∧
    (Instr.round ∈ stepsTaken s →
      (s.ri = 15 → t.ri = 15 ∧ t.ph = .final) ∧ (s.ri ≠ 15 → t.ri.toNat = s.ri.toNat + 1)) ∧
    (Instr.reset ∉ stepsTaken s → Instr.start ∉ stepsTaken s →
      (Instr.ksRound ∉ stepsTaken s → t.ki = s.ki) ∧
      (Instr.join ∉ stepsTaken s → Instr.round ∉ stepsTaken s → t.ri = s.ri))

/-- R30: what sets and what clears each flag; nothing else changes one. -/
def Obligations.FlagsSetAndCleared : Prop :=
  ∀ s t : State, step s = .next t →
    (t.ksLd =
      if Instr.reset ∈ stepsTaken s ∨ Instr.start ∈ stepsTaken s then false
      else if Instr.ksLoad ∈ stepsTaken s then true else s.ksLd) ∧
    (t.ksDone =
      if Instr.reset ∈ stepsTaken s ∨ Instr.start ∈ stepsTaken s then false
      else if Instr.ksRound ∈ stepsTaken s ∧ s.ki = 15 then true else s.ksDone) ∧
    (t.ipDone =
      if Instr.reset ∈ stepsTaken s ∨ Instr.start ∈ stepsTaken s then false
      else if Instr.ipLoad ∈ stepsTaken s then true else s.ipDone) ∧
    (t.done =
      if Instr.reset ∈ stepsTaken s ∨ Instr.start ∈ stepsTaken s then false
      else if Instr.final ∈ stepsTaken s then true else s.done)

/-- From R41 (the register summary): which steps write which data register; `RESET` makes every one unspecified
(R38). -/
def Obligations.DataRegistersWrittenOnlyByTheirSteps : Prop :=
  ∀ s t : State, step s = .next t → Instr.reset ∉ stepsTaken s →
    (Instr.start ∉ stepsTaken s → t.keyr = s.keyr ∧ t.dinr = s.dinr) ∧
    (Instr.ksLoad ∉ stepsTaken s → Instr.ksRound ∉ stepsTaken s → t.c = s.c ∧ t.d = s.d) ∧
    (∀ j : Fin 16, ¬(Instr.ksRound ∈ stepsTaken s ∧ s.ki.toNat = j.val) → readRk t.rk j = readRk s.rk j) ∧
    (Instr.ipLoad ∉ stepsTaken s → Instr.round ∉ stepsTaken s → t.l = s.l ∧ t.r = s.r) ∧
    (Instr.final ∉ stepsTaken s → t.dout = s.dout) ∧
    t.draws = s.draws ∧ t.fnOut = s.fnOut

/-! ### Invariants and runs -/

/-- R38, and that the invariant holds in the reset state, whatever the host and the schedule have in store. The data
registers' reset values are free values (log 4); nothing here rests on them. -/
def Obligations.ResetStateMeetsTheInvariant : Prop :=
  (State.reset.ph = .idle ∧ State.reset.ki = 0 ∧ State.reset.ri = 0 ∧ State.reset.ksLd = false ∧
    State.reset.ksDone = false ∧ State.reset.ipDone = false ∧ State.reset.done = false ∧
    State.reset.busy = false ∧ State.reset.donePort = false ∧ State.reset.blockOut = none) ∧
  (∀ (inputs : List Ports) (choices : List SchedChoice),
    Consistent { State.reset with hostInputs := inputs, schedule := choices })

/-- R37 as an invariant of the clock edge, from every state that has it, under every host and every schedule. -/
def Obligations.EveryEdgeKeepsTheInvariant : Prop :=
  ∀ s t : State, Consistent s → step s = .next t → Consistent t

/-- R37 items 1 to 5: every state reachable from a `RESET` has them. -/
def Obligations.ReachableStatesAreConsistent : Prop :=
  ∀ s : State, Reachable s →
    PrepFlags s ∧ JoinedResults s ∧ RoundsSoFar s ∧ BusyNotDone s ∧ ResultWhenDone s

/-- R125: what the agent `KS` guarantees when `KS_DONE = 1`. -/
def Obligations.KeyScheduleGuarantee : Prop :=
  (∀ s : State, Reachable s → s.ksDone = true →
    s.rk = deriveRoundKeys s.keyr ∧ s.ki = 15 ∧ (s.c, s.d) = ksInit s.keyr) ∧
  (∀ key key' : Block, (∀ i < 64, i % 8 ≠ 7 → key.getMsbD i = key'.getMsbD i) →
    deriveRoundKeys key = deriveRoundKeys key') ∧
  (∀ s t : State, Reachable s → s.ksDone = true → step s = .next t → Instr.start ∉ stepsTaken s →
    Instr.reset ∉ stepsTaken s → t.rk = s.rk)

/-- R183: no run-time exception: from every reachable state, under every value of the ports and every schedule, the
clock edge has a next state, and so has every enabled step. -/
def Obligations.NoRuntimeException : Prop :=
  ∀ (s : State) (inputs : List Ports) (choices : List SchedChoice), Reachable s →
    (∃ t, step { s with hostInputs := inputs, schedule := choices } = .next t) ∧
    ∃ is, enabledSet { s with hostInputs := inputs, schedule := choices } = .enabled is ∧
      ∀ i ∈ is, ∃ t, exec i { s with hostInputs := inputs, schedule := choices } = .next t

/-- From R63 (c): under every schedule a run without `RESET` reaches `JOIN` after 18 or 19 edges, in one and the same
state: the one the sampled key and block give. -/
def Obligations.EveryScheduleReachesTheSameJoin : Prop :=
  ∀ (s : State) (p : Ports) (ps : List Ports),
    s.ph = .idle → s.hostInputs = p :: ps → p.rst = false → p.start = true →
    19 ≤ ps.length → (∀ q ∈ ps, q.rst = false) →
    ∃ (n : Nat) (t : State), (n = 18 ∨ n = 19) ∧ Host.Core.run core n s = .next t ∧
      enabledSet t = .enabled [.join] ∧
      t = { s with
        keyr := p.keyIn, dinr := p.blockIn
        c := (ksInit p.keyIn).1, d := (ksInit p.keyIn).2, rk := deriveRoundKeys p.keyIn
        l := (split 32 (ipFn p.blockIn)).1, r := (split 32 (ipFn p.blockIn)).2
        ph := .prep, ki := 15, ri := 0, ksLd := true, ksDone := true, ipDone := true, done := false
        hostInputs := (p :: ps).drop n, schedule := t.schedule, edge := s.edge + n }

/-- R157: the machine computes the cipher. Every run that begins with a `START` reaches `FINAL` under every schedule
if no `RESET` intervenes; then `DONE = 1`, `PH = IDLE` and `DOUT` is the ciphertext of the sampled block under the
sampled key; it takes exactly 37 steps, on 36 edges when `IP_LOAD` shares an edge with a `KS` step, else on 37. -/
def Obligations.RunEncryptsTheSampledBlock : Prop :=
  ∀ (s : State) (p : Ports) (ps : List Ports),
    s.ph = .idle → s.hostInputs = p :: ps → p.rst = false → p.start = true →
    36 ≤ ps.length → (∀ q ∈ ps, q.rst = false) →
    ∃ (n : Nat) (t : State), Host.Core.run core n s = .next t ∧
      t.done = true ∧ t.ph = .idle ∧ t.dout = encryptBlock p.blockIn p.keyIn ∧
      t.blockOut = some (encryptBlock p.blockIn p.keyIn) ∧
      (trace n s).length = n ∧ (trace n s).flatten.length = 37 ∧
      (trace n s).flatten.count .start = 1 ∧ (trace n s).flatten.count .ksLoad = 1 ∧
      (trace n s).flatten.count .ksRound = 16 ∧ (trace n s).flatten.count .ipLoad = 1 ∧
      (trace n s).flatten.count .join = 1 ∧ (trace n s).flatten.count .round = 16 ∧
      (trace n s).flatten.count .final = 1 ∧
      (((∃ e ∈ trace n s, Instr.ipLoad ∈ e ∧ (Instr.ksLoad ∈ e ∨ Instr.ksRound ∈ e)) ∧ n = 36) ∨
       ((∀ e ∈ trace n s, Instr.ipLoad ∈ e → e = [.ipLoad]) ∧ n = 37))

/-- R170: runs are independent. Two idle machines that differ in any register or flag (an earlier key, block, round
key, half or result) and are driven alike, beginning with a `START`, show the same on every output port from the first
edge on, resets and further runs included. -/
def Obligations.RunsAreIndependent : Prop :=
  ∀ (s₁ s₂ t₁ : State) (n : Nat),
    s₁.ph = .idle → s₂.ph = .idle → s₁.hostInputs = s₂.hostInputs → s₁.schedule = s₂.schedule →
    s₁.edge = s₂.edge → s₁.draws = s₂.draws → s₁.ports.rst = false → s₁.ports.start = true →
    Host.Core.run core (n + 1) s₁ = .next t₁ →
    ∃ t₂, Host.Core.run core (n + 1) s₂ = .next t₂ ∧
      t₂.busy = t₁.busy ∧ t₂.donePort = t₁.donePort ∧ t₂.blockOut = t₁.blockOut
end

