-- ==== Sys2Proof/Laws/State.lean ====
section
/-! SUPPORT. What each update of the state does to each field, one lemma a field, so that no proof unfolds a record
update. A field an update does not name keeps its value (spec/00_scope.md rule R14). -/

namespace Sys2Proof.Machine

@[simp] theorem idleEffect_eq (s : State) : idleEffect s = s := rfl

/-! ### `State.withFnOut` -/

@[simp] theorem State.withFnOut_keyr (s : State) (out : List Bits) : (s.withFnOut out).keyr = s.keyr := rfl
@[simp] theorem State.withFnOut_dinr (s : State) (out : List Bits) : (s.withFnOut out).dinr = s.dinr := rfl
@[simp] theorem State.withFnOut_c (s : State) (out : List Bits) : (s.withFnOut out).c = s.c := rfl
@[simp] theorem State.withFnOut_d (s : State) (out : List Bits) : (s.withFnOut out).d = s.d := rfl
@[simp] theorem State.withFnOut_rk (s : State) (out : List Bits) : (s.withFnOut out).rk = s.rk := rfl
@[simp] theorem State.withFnOut_l (s : State) (out : List Bits) : (s.withFnOut out).l = s.l := rfl
@[simp] theorem State.withFnOut_r (s : State) (out : List Bits) : (s.withFnOut out).r = s.r := rfl
@[simp] theorem State.withFnOut_dout (s : State) (out : List Bits) : (s.withFnOut out).dout = s.dout := rfl
@[simp] theorem State.withFnOut_ph (s : State) (out : List Bits) : (s.withFnOut out).ph = s.ph := rfl
@[simp] theorem State.withFnOut_ki (s : State) (out : List Bits) : (s.withFnOut out).ki = s.ki := rfl
@[simp] theorem State.withFnOut_ri (s : State) (out : List Bits) : (s.withFnOut out).ri = s.ri := rfl
@[simp] theorem State.withFnOut_ksLd (s : State) (out : List Bits) : (s.withFnOut out).ksLd = s.ksLd := rfl
@[simp] theorem State.withFnOut_ksDone (s : State) (out : List Bits) : (s.withFnOut out).ksDone = s.ksDone := rfl
@[simp] theorem State.withFnOut_ipDone (s : State) (out : List Bits) : (s.withFnOut out).ipDone = s.ipDone := rfl
@[simp] theorem State.withFnOut_done (s : State) (out : List Bits) : (s.withFnOut out).done = s.done := rfl
@[simp] theorem State.withFnOut_hostInputs (s : State) (out : List Bits) :
    (s.withFnOut out).hostInputs = s.hostInputs := rfl
@[simp] theorem State.withFnOut_schedule (s : State) (out : List Bits) :
    (s.withFnOut out).schedule = s.schedule := rfl
@[simp] theorem State.withFnOut_edge (s : State) (out : List Bits) : (s.withFnOut out).edge = s.edge := rfl
@[simp] theorem State.withFnOut_draws (s : State) (out : List Bits) : (s.withFnOut out).draws = s.draws := rfl
@[simp] theorem State.withFnOut_fnOut (s : State) (out : List Bits) : (s.withFnOut out).fnOut = out := rfl
@[simp] theorem State.withFnOut_ports (s : State) (out : List Bits) : (s.withFnOut out).ports = s.ports := rfl
@[simp] theorem State.withFnOut_choice (s : State) (out : List Bits) : (s.withFnOut out).choice = s.choice := rfl

/-! ### `State.endEdge` -/

@[simp] theorem State.endEdge_keyr (s : State) (is : List Instr) : (s.endEdge is).keyr = s.keyr := rfl
@[simp] theorem State.endEdge_dinr (s : State) (is : List Instr) : (s.endEdge is).dinr = s.dinr := rfl
@[simp] theorem State.endEdge_c (s : State) (is : List Instr) : (s.endEdge is).c = s.c := rfl
@[simp] theorem State.endEdge_d (s : State) (is : List Instr) : (s.endEdge is).d = s.d := rfl
@[simp] theorem State.endEdge_rk (s : State) (is : List Instr) : (s.endEdge is).rk = s.rk := rfl
@[simp] theorem State.endEdge_l (s : State) (is : List Instr) : (s.endEdge is).l = s.l := rfl
@[simp] theorem State.endEdge_r (s : State) (is : List Instr) : (s.endEdge is).r = s.r := rfl
@[simp] theorem State.endEdge_dout (s : State) (is : List Instr) : (s.endEdge is).dout = s.dout := rfl
@[simp] theorem State.endEdge_ph (s : State) (is : List Instr) : (s.endEdge is).ph = s.ph := rfl
@[simp] theorem State.endEdge_ki (s : State) (is : List Instr) : (s.endEdge is).ki = s.ki := rfl
@[simp] theorem State.endEdge_ri (s : State) (is : List Instr) : (s.endEdge is).ri = s.ri := rfl
@[simp] theorem State.endEdge_ksLd (s : State) (is : List Instr) : (s.endEdge is).ksLd = s.ksLd := rfl
@[simp] theorem State.endEdge_ksDone (s : State) (is : List Instr) : (s.endEdge is).ksDone = s.ksDone := rfl
@[simp] theorem State.endEdge_ipDone (s : State) (is : List Instr) : (s.endEdge is).ipDone = s.ipDone := rfl
@[simp] theorem State.endEdge_done (s : State) (is : List Instr) : (s.endEdge is).done = s.done := rfl
@[simp] theorem State.endEdge_hostInputs (s : State) (is : List Instr) :
    (s.endEdge is).hostInputs = s.hostInputs.tail := rfl
@[simp] theorem State.endEdge_schedule (s : State) (is : List Instr) :
    (s.endEdge is).schedule = scheduleAfter is s.schedule := rfl
@[simp] theorem State.endEdge_edge (s : State) (is : List Instr) : (s.endEdge is).edge = s.edge + 1 := rfl
@[simp] theorem State.endEdge_draws (s : State) (is : List Instr) : (s.endEdge is).draws = s.draws := rfl
@[simp] theorem State.endEdge_fnOut (s : State) (is : List Instr) : (s.endEdge is).fnOut = s.fnOut := rfl

/-! ### `ksLoadEffect` -/

@[simp] theorem ksLoadEffect_keyr (s : State) : (ksLoadEffect s).keyr = s.keyr := rfl
@[simp] theorem ksLoadEffect_dinr (s : State) : (ksLoadEffect s).dinr = s.dinr := rfl
@[simp] theorem ksLoadEffect_c (s : State) : (ksLoadEffect s).c = (ksInit s.keyr).1 := rfl
@[simp] theorem ksLoadEffect_d (s : State) : (ksLoadEffect s).d = (ksInit s.keyr).2 := rfl
@[simp] theorem ksLoadEffect_rk (s : State) : (ksLoadEffect s).rk = s.rk := rfl
@[simp] theorem ksLoadEffect_l (s : State) : (ksLoadEffect s).l = s.l := rfl
@[simp] theorem ksLoadEffect_r (s : State) : (ksLoadEffect s).r = s.r := rfl
@[simp] theorem ksLoadEffect_dout (s : State) : (ksLoadEffect s).dout = s.dout := rfl
@[simp] theorem ksLoadEffect_ph (s : State) : (ksLoadEffect s).ph = s.ph := rfl
@[simp] theorem ksLoadEffect_ki (s : State) : (ksLoadEffect s).ki = s.ki := rfl
@[simp] theorem ksLoadEffect_ri (s : State) : (ksLoadEffect s).ri = s.ri := rfl
@[simp] theorem ksLoadEffect_ksLd (s : State) : (ksLoadEffect s).ksLd = true := rfl
@[simp] theorem ksLoadEffect_ksDone (s : State) : (ksLoadEffect s).ksDone = s.ksDone := rfl
@[simp] theorem ksLoadEffect_ipDone (s : State) : (ksLoadEffect s).ipDone = s.ipDone := rfl
@[simp] theorem ksLoadEffect_done (s : State) : (ksLoadEffect s).done = s.done := rfl
@[simp] theorem ksLoadEffect_hostInputs (s : State) : (ksLoadEffect s).hostInputs = s.hostInputs := rfl
@[simp] theorem ksLoadEffect_schedule (s : State) : (ksLoadEffect s).schedule = s.schedule := rfl
@[simp] theorem ksLoadEffect_edge (s : State) : (ksLoadEffect s).edge = s.edge := rfl
@[simp] theorem ksLoadEffect_draws (s : State) : (ksLoadEffect s).draws = s.draws := rfl
@[simp] theorem ksLoadEffect_fnOut (s : State) : (ksLoadEffect s).fnOut = s.fnOut := rfl
@[simp] theorem ksLoadEffect_ports (s : State) : (ksLoadEffect s).ports = s.ports := rfl
@[simp] theorem ksLoadEffect_choice (s : State) : (ksLoadEffect s).choice = s.choice := rfl

/-! ### `ksRoundEffect` -/

@[simp] theorem ksRoundEffect_keyr (s : State) : (ksRoundEffect s).keyr = s.keyr := rfl
@[simp] theorem ksRoundEffect_dinr (s : State) : (ksRoundEffect s).dinr = s.dinr := rfl
@[simp] theorem ksRoundEffect_c (s : State) : (ksRoundEffect s).c = (ksNext s.c s.d (counterIndex s.ki)).1 := rfl
@[simp] theorem ksRoundEffect_d (s : State) : (ksRoundEffect s).d = (ksNext s.c s.d (counterIndex s.ki)).2.1 := rfl
@[simp] theorem ksRoundEffect_rk (s : State) : (ksRoundEffect s).rk = 
      writeRk s.rk (counterIndex s.ki) (ksNext s.c s.d (counterIndex s.ki)).2.2 := rfl
@[simp] theorem ksRoundEffect_l (s : State) : (ksRoundEffect s).l = s.l := rfl
@[simp] theorem ksRoundEffect_r (s : State) : (ksRoundEffect s).r = s.r := rfl
@[simp] theorem ksRoundEffect_dout (s : State) : (ksRoundEffect s).dout = s.dout := rfl
@[simp] theorem ksRoundEffect_ph (s : State) : (ksRoundEffect s).ph = s.ph := rfl
@[simp] theorem ksRoundEffect_ki (s : State) : (ksRoundEffect s).ki = countUp s.ki := rfl
@[simp] theorem ksRoundEffect_ri (s : State) : (ksRoundEffect s).ri = s.ri := rfl
@[simp] theorem ksRoundEffect_ksLd (s : State) : (ksRoundEffect s).ksLd = s.ksLd := rfl
@[simp] theorem ksRoundEffect_ksDone (s : State) :
    (ksRoundEffect s).ksDone = if s.ki = 15 then true else s.ksDone := rfl
@[simp] theorem ksRoundEffect_ipDone (s : State) : (ksRoundEffect s).ipDone = s.ipDone := rfl
@[simp] theorem ksRoundEffect_done (s : State) : (ksRoundEffect s).done = s.done := rfl
@[simp] theorem ksRoundEffect_hostInputs (s : State) : (ksRoundEffect s).hostInputs = s.hostInputs := rfl
@[simp] theorem ksRoundEffect_schedule (s : State) : (ksRoundEffect s).schedule = s.schedule := rfl
@[simp] theorem ksRoundEffect_edge (s : State) : (ksRoundEffect s).edge = s.edge := rfl
@[simp] theorem ksRoundEffect_draws (s : State) : (ksRoundEffect s).draws = s.draws := rfl
@[simp] theorem ksRoundEffect_fnOut (s : State) : (ksRoundEffect s).fnOut = s.fnOut := rfl
@[simp] theorem ksRoundEffect_ports (s : State) : (ksRoundEffect s).ports = s.ports := rfl
@[simp] theorem ksRoundEffect_choice (s : State) : (ksRoundEffect s).choice = s.choice := rfl

/-! ### `ipLoadEffect` -/

@[simp] theorem ipLoadEffect_keyr (s : State) : (ipLoadEffect s).keyr = s.keyr := rfl
@[simp] theorem ipLoadEffect_dinr (s : State) : (ipLoadEffect s).dinr = s.dinr := rfl
@[simp] theorem ipLoadEffect_c (s : State) : (ipLoadEffect s).c = s.c := rfl
@[simp] theorem ipLoadEffect_d (s : State) : (ipLoadEffect s).d = s.d := rfl
@[simp] theorem ipLoadEffect_rk (s : State) : (ipLoadEffect s).rk = s.rk := rfl
@[simp] theorem ipLoadEffect_l (s : State) : (ipLoadEffect s).l = (split 32 (ipFn s.dinr)).1 := rfl
@[simp] theorem ipLoadEffect_r (s : State) : (ipLoadEffect s).r = (split 32 (ipFn s.dinr)).2 := rfl
@[simp] theorem ipLoadEffect_dout (s : State) : (ipLoadEffect s).dout = s.dout := rfl
@[simp] theorem ipLoadEffect_ph (s : State) : (ipLoadEffect s).ph = s.ph := rfl
@[simp] theorem ipLoadEffect_ki (s : State) : (ipLoadEffect s).ki = s.ki := rfl
@[simp] theorem ipLoadEffect_ri (s : State) : (ipLoadEffect s).ri = s.ri := rfl
@[simp] theorem ipLoadEffect_ksLd (s : State) : (ipLoadEffect s).ksLd = s.ksLd := rfl
@[simp] theorem ipLoadEffect_ksDone (s : State) : (ipLoadEffect s).ksDone = s.ksDone := rfl
@[simp] theorem ipLoadEffect_ipDone (s : State) : (ipLoadEffect s).ipDone = true := rfl
@[simp] theorem ipLoadEffect_done (s : State) : (ipLoadEffect s).done = s.done := rfl
@[simp] theorem ipLoadEffect_hostInputs (s : State) : (ipLoadEffect s).hostInputs = s.hostInputs := rfl
@[simp] theorem ipLoadEffect_schedule (s : State) : (ipLoadEffect s).schedule = s.schedule := rfl
@[simp] theorem ipLoadEffect_edge (s : State) : (ipLoadEffect s).edge = s.edge := rfl
@[simp] theorem ipLoadEffect_draws (s : State) : (ipLoadEffect s).draws = s.draws := rfl
@[simp] theorem ipLoadEffect_fnOut (s : State) : (ipLoadEffect s).fnOut = s.fnOut := rfl
@[simp] theorem ipLoadEffect_ports (s : State) : (ipLoadEffect s).ports = s.ports := rfl
@[simp] theorem ipLoadEffect_choice (s : State) : (ipLoadEffect s).choice = s.choice := rfl

/-! ### `resetEffect` -/

@[simp] theorem resetEffect_keyr (s : State) : (resetEffect s).keyr = Config.unspec 64 .keyr s.draws := rfl
@[simp] theorem resetEffect_dinr (s : State) : (resetEffect s).dinr = Config.unspec 64 .dinr s.draws := rfl
@[simp] theorem resetEffect_c (s : State) : (resetEffect s).c = Config.unspec 28 .c s.draws := rfl
@[simp] theorem resetEffect_d (s : State) : (resetEffect s).d = Config.unspec 28 .d s.draws := rfl
@[simp] theorem resetEffect_rk (s : State) : (resetEffect s).rk = unspecRk s.draws := rfl
@[simp] theorem resetEffect_l (s : State) : (resetEffect s).l = Config.unspec 32 .l s.draws := rfl
@[simp] theorem resetEffect_r (s : State) : (resetEffect s).r = Config.unspec 32 .r s.draws := rfl
@[simp] theorem resetEffect_dout (s : State) : (resetEffect s).dout = Config.unspec 64 .dout s.draws := rfl
@[simp] theorem resetEffect_ph (s : State) : (resetEffect s).ph = .idle := rfl
@[simp] theorem resetEffect_ki (s : State) : (resetEffect s).ki = 0 := rfl
@[simp] theorem resetEffect_ri (s : State) : (resetEffect s).ri = 0 := rfl
@[simp] theorem resetEffect_ksLd (s : State) : (resetEffect s).ksLd = false := rfl
@[simp] theorem resetEffect_ksDone (s : State) : (resetEffect s).ksDone = false := rfl
@[simp] theorem resetEffect_ipDone (s : State) : (resetEffect s).ipDone = false := rfl
@[simp] theorem resetEffect_done (s : State) : (resetEffect s).done = false := rfl
@[simp] theorem resetEffect_hostInputs (s : State) : (resetEffect s).hostInputs = s.hostInputs := rfl
@[simp] theorem resetEffect_schedule (s : State) : (resetEffect s).schedule = s.schedule := rfl
@[simp] theorem resetEffect_edge (s : State) : (resetEffect s).edge = s.edge := rfl
@[simp] theorem resetEffect_draws (s : State) : (resetEffect s).draws = s.draws + 1 := rfl
@[simp] theorem resetEffect_fnOut (s : State) : (resetEffect s).fnOut = s.fnOut := rfl
@[simp] theorem resetEffect_ports (s : State) : (resetEffect s).ports = s.ports := rfl
@[simp] theorem resetEffect_choice (s : State) : (resetEffect s).choice = s.choice := rfl

/-! ### `startEffect` -/

@[simp] theorem startEffect_keyr (s : State) : (startEffect s).keyr = s.ports.keyIn := rfl
@[simp] theorem startEffect_dinr (s : State) : (startEffect s).dinr = s.ports.blockIn := rfl
@[simp] theorem startEffect_c (s : State) : (startEffect s).c = s.c := rfl
@[simp] theorem startEffect_d (s : State) : (startEffect s).d = s.d := rfl
@[simp] theorem startEffect_rk (s : State) : (startEffect s).rk = s.rk := rfl
@[simp] theorem startEffect_l (s : State) : (startEffect s).l = s.l := rfl
@[simp] theorem startEffect_r (s : State) : (startEffect s).r = s.r := rfl
@[simp] theorem startEffect_dout (s : State) : (startEffect s).dout = s.dout := rfl
@[simp] theorem startEffect_ph (s : State) : (startEffect s).ph = .prep := rfl
@[simp] theorem startEffect_ki (s : State) : (startEffect s).ki = 0 := rfl
@[simp] theorem startEffect_ri (s : State) : (startEffect s).ri = 0 := rfl
@[simp] theorem startEffect_ksLd (s : State) : (startEffect s).ksLd = false := rfl
@[simp] theorem startEffect_ksDone (s : State) : (startEffect s).ksDone = false := rfl
@[simp] theorem startEffect_ipDone (s : State) : (startEffect s).ipDone = false := rfl
@[simp] theorem startEffect_done (s : State) : (startEffect s).done = false := rfl
@[simp] theorem startEffect_hostInputs (s : State) : (startEffect s).hostInputs = s.hostInputs := rfl
@[simp] theorem startEffect_schedule (s : State) : (startEffect s).schedule = s.schedule := rfl
@[simp] theorem startEffect_edge (s : State) : (startEffect s).edge = s.edge := rfl
@[simp] theorem startEffect_draws (s : State) : (startEffect s).draws = s.draws := rfl
@[simp] theorem startEffect_fnOut (s : State) : (startEffect s).fnOut = s.fnOut := rfl
@[simp] theorem startEffect_ports (s : State) : (startEffect s).ports = s.ports := rfl
@[simp] theorem startEffect_choice (s : State) : (startEffect s).choice = s.choice := rfl

/-! ### `joinEffect` -/

@[simp] theorem joinEffect_keyr (s : State) : (joinEffect s).keyr = s.keyr := rfl
@[simp] theorem joinEffect_dinr (s : State) : (joinEffect s).dinr = s.dinr := rfl
@[simp] theorem joinEffect_c (s : State) : (joinEffect s).c = s.c := rfl
@[simp] theorem joinEffect_d (s : State) : (joinEffect s).d = s.d := rfl
@[simp] theorem joinEffect_rk (s : State) : (joinEffect s).rk = s.rk := rfl
@[simp] theorem joinEffect_l (s : State) : (joinEffect s).l = s.l := rfl
@[simp] theorem joinEffect_r (s : State) : (joinEffect s).r = s.r := rfl
@[simp] theorem joinEffect_dout (s : State) : (joinEffect s).dout = s.dout := rfl
@[simp] theorem joinEffect_ph (s : State) : (joinEffect s).ph = .rounds := rfl
@[simp] theorem joinEffect_ki (s : State) : (joinEffect s).ki = s.ki := rfl
@[simp] theorem joinEffect_ri (s : State) : (joinEffect s).ri = 0 := rfl
@[simp] theorem joinEffect_ksLd (s : State) : (joinEffect s).ksLd = s.ksLd := rfl
@[simp] theorem joinEffect_ksDone (s : State) : (joinEffect s).ksDone = s.ksDone := rfl
@[simp] theorem joinEffect_ipDone (s : State) : (joinEffect s).ipDone = s.ipDone := rfl
@[simp] theorem joinEffect_done (s : State) : (joinEffect s).done = s.done := rfl
@[simp] theorem joinEffect_hostInputs (s : State) : (joinEffect s).hostInputs = s.hostInputs := rfl
@[simp] theorem joinEffect_schedule (s : State) : (joinEffect s).schedule = s.schedule := rfl
@[simp] theorem joinEffect_edge (s : State) : (joinEffect s).edge = s.edge := rfl
@[simp] theorem joinEffect_draws (s : State) : (joinEffect s).draws = s.draws := rfl
@[simp] theorem joinEffect_fnOut (s : State) : (joinEffect s).fnOut = s.fnOut := rfl
@[simp] theorem joinEffect_ports (s : State) : (joinEffect s).ports = s.ports := rfl
@[simp] theorem joinEffect_choice (s : State) : (joinEffect s).choice = s.choice := rfl

/-! ### `roundEffect` -/

@[simp] theorem roundEffect_keyr (s : State) : (roundEffect s).keyr = s.keyr := rfl
@[simp] theorem roundEffect_dinr (s : State) : (roundEffect s).dinr = s.dinr := rfl
@[simp] theorem roundEffect_c (s : State) : (roundEffect s).c = s.c := rfl
@[simp] theorem roundEffect_d (s : State) : (roundEffect s).d = s.d := rfl
@[simp] theorem roundEffect_rk (s : State) : (roundEffect s).rk = s.rk := rfl
@[simp] theorem roundEffect_l (s : State) :
    (roundEffect s).l = (roundFn s.l s.r (readRk s.rk (counterIndex s.ri))).1 := rfl
@[simp] theorem roundEffect_r (s : State) :
    (roundEffect s).r = (roundFn s.l s.r (readRk s.rk (counterIndex s.ri))).2 := rfl
@[simp] theorem roundEffect_dout (s : State) : (roundEffect s).dout = s.dout := rfl
@[simp] theorem roundEffect_ph (s : State) : (roundEffect s).ph = if s.ri = 15 then .final else s.ph := rfl
@[simp] theorem roundEffect_ki (s : State) : (roundEffect s).ki = s.ki := rfl
@[simp] theorem roundEffect_ri (s : State) : (roundEffect s).ri = countUp s.ri := rfl
@[simp] theorem roundEffect_ksLd (s : State) : (roundEffect s).ksLd = s.ksLd := rfl
@[simp] theorem roundEffect_ksDone (s : State) : (roundEffect s).ksDone = s.ksDone := rfl
@[simp] theorem roundEffect_ipDone (s : State) : (roundEffect s).ipDone = s.ipDone := rfl
@[simp] theorem roundEffect_done (s : State) : (roundEffect s).done = s.done := rfl
@[simp] theorem roundEffect_hostInputs (s : State) : (roundEffect s).hostInputs = s.hostInputs := rfl
@[simp] theorem roundEffect_schedule (s : State) : (roundEffect s).schedule = s.schedule := rfl
@[simp] theorem roundEffect_edge (s : State) : (roundEffect s).edge = s.edge := rfl
@[simp] theorem roundEffect_draws (s : State) : (roundEffect s).draws = s.draws := rfl
@[simp] theorem roundEffect_fnOut (s : State) : (roundEffect s).fnOut = s.fnOut := rfl
@[simp] theorem roundEffect_ports (s : State) : (roundEffect s).ports = s.ports := rfl
@[simp] theorem roundEffect_choice (s : State) : (roundEffect s).choice = s.choice := rfl

/-! ### `finalEffect` -/

@[simp] theorem finalEffect_keyr (s : State) : (finalEffect s).keyr = s.keyr := rfl
@[simp] theorem finalEffect_dinr (s : State) : (finalEffect s).dinr = s.dinr := rfl
@[simp] theorem finalEffect_c (s : State) : (finalEffect s).c = s.c := rfl
@[simp] theorem finalEffect_d (s : State) : (finalEffect s).d = s.d := rfl
@[simp] theorem finalEffect_rk (s : State) : (finalEffect s).rk = s.rk := rfl
@[simp] theorem finalEffect_l (s : State) : (finalEffect s).l = s.l := rfl
@[simp] theorem finalEffect_r (s : State) : (finalEffect s).r = s.r := rfl
@[simp] theorem finalEffect_dout (s : State) : (finalEffect s).dout = finish s.l s.r := rfl
@[simp] theorem finalEffect_ph (s : State) : (finalEffect s).ph = .idle := rfl
@[simp] theorem finalEffect_ki (s : State) : (finalEffect s).ki = s.ki := rfl
@[simp] theorem finalEffect_ri (s : State) : (finalEffect s).ri = s.ri := rfl
@[simp] theorem finalEffect_ksLd (s : State) : (finalEffect s).ksLd = s.ksLd := rfl
@[simp] theorem finalEffect_ksDone (s : State) : (finalEffect s).ksDone = s.ksDone := rfl
@[simp] theorem finalEffect_ipDone (s : State) : (finalEffect s).ipDone = s.ipDone := rfl
@[simp] theorem finalEffect_done (s : State) : (finalEffect s).done = true := rfl
@[simp] theorem finalEffect_hostInputs (s : State) : (finalEffect s).hostInputs = s.hostInputs := rfl
@[simp] theorem finalEffect_schedule (s : State) : (finalEffect s).schedule = s.schedule := rfl
@[simp] theorem finalEffect_edge (s : State) : (finalEffect s).edge = s.edge := rfl
@[simp] theorem finalEffect_draws (s : State) : (finalEffect s).draws = s.draws := rfl
@[simp] theorem finalEffect_fnOut (s : State) : (finalEffect s).fnOut = s.fnOut := rfl
@[simp] theorem finalEffect_ports (s : State) : (finalEffect s).ports = s.ports := rfl
@[simp] theorem finalEffect_choice (s : State) : (finalEffect s).choice = s.choice := rfl

end Sys2Proof.Machine
end

