-- ==== Sys2Proof/Laws/Ops.lean ====
section
/-! SUPPORT. One lemma for each shared operation, saying once everything it can do. -/

namespace Sys2Proof.Machine

/-- The three ways a `STEP` operation can end (R72, R74). -/
theorem performStep_cases (i : Instr) (f : State → State) (s : State) :
    (s.reserved = true ∧ performStep i f s = .fault .reservedControlState) ∨
    (s.reserved = false ∧ enables s.sel i = true ∧ performStep i f s = .next (f s)) ∨
    (s.reserved = false ∧ enables s.sel i = false ∧ performStep i f s = .refused .notEnabled) := by
  unfold performStep
  cases s.reserved <;> cases enables s.sel i <;> simp

theorem performStep_next_iff (i : Instr) (f : State → State) (s t : State) :
    performStep i f s = .next t ↔ s.reserved = false ∧ enables s.sel i = true ∧ t = f s := by
  unfold performStep
  cases s.reserved <;> cases enables s.sel i <;> simp [eq_comm]

/-- An `FN` operation whose precondition holds puts its result in `fnOut`, and does nothing else (R17). -/
theorem performFn_next_iff (ok : Bool) (why : Refusal) (out : List Bits) (s t : State) :
    performFn ok why out s = .next t ↔ ok = true ∧ t = s.withFnOut out := by
  unfold performFn
  cases ok <;> simp [eq_comm]

theorem performFn_ok (why : Refusal) (out : List Bits) (s : State) :
    performFn true why out s = .next (s.withFnOut out) := rfl

theorem performFn_refused (why : Refusal) (out : List Bits) (s : State) :
    performFn false why out s = .refused why := rfl

/-- Running steps one after the other: the first, then the rest. -/
theorem runSteps_cons_next_iff (i : Instr) (is : List Instr) (s u : State) :
    runSteps (i :: is) s = .next u ↔ ∃ t, exec i s = .next t ∧ runSteps is t = .next u := by
  simp only [runSteps]
  cases exec i s <;> simp

@[simp] theorem runSteps_nil (s : State) : runSteps [] s = .next s := rfl

/-- What a clock edge can answer with a next state: the steps the schedule takes, then the next edge. -/
theorem clockEdge_next_iff (s u : State) :
    clockEdge s = .next u ↔
      ∃ is t, enabledSet s = .enabled is ∧ runSteps (chooseSteps s.choice is) s = .next t ∧ u = t.endEdge is := by
  unfold clockEdge
  cases h : enabledSet s with
  | rejected r => simp
  | enabled is =>
    cases h2 : runSteps (chooseSteps s.choice is) s <;> simp [h2, eq_comm]

@[simp] theorem step_eq_clockEdge (s : State) : step s = clockEdge s := rfl

/-- What a choice takes of an enabled set (R211): everything, or one of two. -/
theorem chooseSteps_cases (x : SchedChoice) (is : List Instr) :
    chooseSteps x is = is ∨
      ∃ k p, is = [k, p] ∧ ((x = .ksOnly ∧ chooseSteps x is = [k]) ∨ (x = .ipuOnly ∧ chooseSteps x is = [p])) := by
  match is with
  | [] => exact .inl rfl
  | [_] => exact .inl rfl
  | [k, p] =>
    cases x
    · exact .inr ⟨k, p, rfl, .inl ⟨rfl, rfl⟩⟩
    · exact .inr ⟨k, p, rfl, .inr ⟨rfl, rfl⟩⟩
    · exact .inl rfl
  | _ :: _ :: _ :: _ => exact .inl rfl

/-- The port sample at an edge the host has listed (R32). -/
theorem ports_of_hostInputs {s : State} {p : Ports} {ps : List Ports} (h : s.hostInputs = p :: ps) :
    s.ports = p := by
  simp [State.ports, h]

/-- The schedule's choice at an edge it lists (R211). -/
theorem choice_of_schedule {s : State} {x : SchedChoice} {xs : List SchedChoice} (h : s.schedule = x :: xs) :
    s.choice = x := by
  simp [State.choice, h]

/-- A write of `RK[i]` seen through a read of `RK[j]` (R24). -/
theorem readRk_writeRk (rk : RoundKeys) (i j : Fin 16) (k : RoundKey) :
    readRk (writeRk rk i k) j = if i = j then k else readRk rk j := by
  simp [readRk, writeRk, Vector.getElem_set, Fin.ext_iff]

/-- A counter below 15 goes up by one; at 15 it stays (R28, R29). -/
theorem toNat_countUp (x : BitVec 4) :
    (countUp x).toNat = if x.toNat = 15 then 15 else x.toNat + 1 := by
  revert x; decide

end Sys2Proof.Machine
end

