-- ==== Sys2Proof/Laws/PerInstr.lean ====
section
/-! SUPPORT. One lemma per constructor for the family `Encoding`: an operation either has no code and no agent
(class `FN`, spec/30_encoding.md rule R70), or has an agent and a word that its own row enables (R72). -/

namespace Sys2Proof.Laws.Encoding

def Statement (i : Instr) : Prop :=
  (encode i = none ∧ i.agent = none) ∨ ∃ w, encode i = some w ∧ enables w i = true ∧ i.agent ≠ none

theorem permute (n : Nat) (v : BitVec n) (t : List Nat) : Statement (.permute n v t) := .inl ⟨rfl, rfl⟩
theorem rotl (n : Nat) (v : BitVec n) (k : Nat) : Statement (.rotl n v k) := .inl ⟨rfl, rfl⟩
theorem xor (n : Nat) (a b : BitVec n) : Statement (.xor n a b) := .inl ⟨rfl, rfl⟩
theorem chunk (m : Nat) (v : BitVec m) (n : Nat) : Statement (.chunk m v n) := .inl ⟨rfl, rfl⟩
theorem split (h : Nat) (v : BitVec (2 * h)) : Statement (.split h v) := .inl ⟨rfl, rfl⟩
theorem concat (p q : Nat) (a : BitVec p) (b : BitVec q) : Statement (.concat p q a b) := .inl ⟨rfl, rfl⟩
theorem hexbits (s : List Char) : Statement (.hexbits s) := .inl ⟨rfl, rfl⟩
theorem asciibits (s : List Char) : Statement (.asciibits s) := .inl ⟨rfl, rfl⟩
theorem ksInit (key : Block) : Statement (.ksInit key) := .inl ⟨rfl, rfl⟩
theorem ksNext (c d : HalfKey) (i : Fin 16) : Statement (.ksNext c d i) := .inl ⟨rfl, rfl⟩
theorem deriveRoundKeys (key : Block) : Statement (.deriveRoundKeys key) := .inl ⟨rfl, rfl⟩
theorem sbox (b : Fin 8) (ch : BitVec 6) : Statement (.sbox b ch) := .inl ⟨rfl, rfl⟩
theorem subst (v : RoundKey) : Statement (.subst v) := .inl ⟨rfl, rfl⟩
theorem expand (r : Half) : Statement (.expand r) := .inl ⟨rfl, rfl⟩
theorem feistelF (r : Half) (k : RoundKey) : Statement (.feistelF r k) := .inl ⟨rfl, rfl⟩
theorem roundFn (l r : Half) (k : RoundKey) : Statement (.roundFn l r k) := .inl ⟨rfl, rfl⟩
theorem ipFn (b : Block) : Statement (.ipFn b) := .inl ⟨rfl, rfl⟩
theorem fpFn (b : Block) : Statement (.fpFn b) := .inl ⟨rfl, rfl⟩
theorem encryptBlock (pt key : Block) : Statement (.encryptBlock pt key) := .inl ⟨rfl, rfl⟩
theorem reset : Statement .reset := .inr ⟨0x40, by decide⟩
theorem idle : Statement .idle := .inr ⟨0x00, by decide⟩
theorem start : Statement .start := .inr ⟨0x01, by decide⟩
theorem ksLoad : Statement .ksLoad := .inr ⟨0x10, by decide⟩
theorem ksRound : Statement .ksRound := .inr ⟨0x18, by decide⟩
theorem ipLoad : Statement .ipLoad := .inr ⟨0x10, by decide⟩
theorem join : Statement .join := .inr ⟨0x1E, by decide⟩
theorem round : Statement .round := .inr ⟨0x2E, by decide⟩
theorem final : Statement .final := .inr ⟨0x3E, by decide⟩

end Sys2Proof.Laws.Encoding
end

