-- ==== Sys2Proof/Laws/Vectors.lean ====
section
/-! SUPPORT. Vectors by their positions (spec/00_scope.md rules R10 to R12): what the builders of a vector hold at
each position. -/

namespace Sys2Proof.Machine

/-- A vector built from its positions has them, if there are as many as its length. -/
theorem getMsbD_fromPositions {m : Nat} (bs : List Bool) (h : bs.length = m) (i : Nat) :
    (fromPositions bs : BitVec m).getMsbD i = bs.getD i false := by
  subst h
  simp [fromPositions, BitVec.getMsbD_ofBoolListBE]

@[simp] theorem length_positions {n : Nat} (v : BitVec n) : (positions v).length = n := by
  simp [positions]

theorem getD_positions {n : Nat} (v : BitVec n) (i : Nat) :
    (positions v).getD i false = v.getMsbD i := by
  by_cases h : i < n
  · simp [positions, List.getD, h]
  · have h1 : v.getMsbD i = false := BitVec.getMsbD_of_ge v i (by omega)
    simp [positions, List.getD, h, h1]

/-- `positions` and `fromPositions` undo each other. -/
theorem fromPositions_positions {n : Nat} (v : BitVec n) : (fromPositions (positions v) : BitVec n) = v := by
  apply BitVec.eq_of_getMsbD_eq
  intro i _
  rw [getMsbD_fromPositions _ (length_positions v), getD_positions]

/-- `sub(v, a, m)` holds positions `a .. a+m-1` of `v` (R12). -/
theorem getMsbD_sub {n : Nat} (v : BitVec n) (a m : Nat) (h : a + m ≤ n) (i : Nat) (hi : i < m) :
    (sub v a m).getMsbD i = v.getMsbD (a + i) := by
  unfold sub
  rw [BitVec.getMsbD_extractLsb']
  have h1 : n - (a + m) + m - i ≤ n := by omega
  have h2 : n - (n - (a + m) + m - i) = a + i := by omega
  simp [hi, h1, h2]

end Sys2Proof.Machine
end

