-- ==== Sys2Proof/Tests/Slice0.lean ====
section
/-! SUPPORT. Tests of the model and witnesses for the hypotheses of the statements.

Expected results come from spec/95_test_vectors.md (V1 to V18, P1 to P5) or from the rule named. Names: `test_…` for a
test, `witness_<statement>…` for a witness. -/

open Sys2Proof Sys2Proof.Machine

namespace Sys2Proof.Tests

set_option Elab.async false

/-- `K*` of 95_test_vectors.md. -/
def keyStar : Block := 0x133457799BBCDFF1
/-- `P*` of 95_test_vectors.md. -/
def blockStar : Block := 0x0123456789ABCDEF

def quiet : Ports := { rst := false, start := false, keyIn := 0, blockIn := 0 }
def request : Ports := { rst := false, start := true, keyIn := keyStar, blockIn := blockStar }
def resetRequest : Ports := { rst := true, start := true, keyIn := 0, blockIn := 0 }

/-- A small state: the control state as given, every data register 0, no schedule listed. -/
def control (ph : Phase) (ksLd ksDone ipDone : Bool) (inputs : List Ports) : State where
  keyr := 0
  dinr := 0
  c := 0
  d := 0
  rk := Vector.replicate 16 0
  l := 0
  r := 0
  dout := 0
  ph := ph
  ki := 0
  ri := 0
  ksLd := ksLd
  ksDone := ksDone
  ipDone := ipDone
  done := false
  hostInputs := inputs
  schedule := []
  edge := 1
  draws := 1
  fnOut := []

def idleState : State := control .idle false false false [quiet, quiet]
def startState : State := control .idle false false false [request, quiet]
def resetState : State := control .rounds true true true [resetRequest, quiet]

/-- `PREP` right after `START` with `K*`, `P*` (P1, after edge 1). -/
def prepState : State :=
  { control .prep false false false [quiet, quiet] with keyr := keyStar, dinr := blockStar }

/-- After `KS_LOAD` alone (P2, `KS` first, after edge 2). -/
def loadedState : State :=
  { control .prep true false false [quiet, quiet] with
    keyr := keyStar, dinr := blockStar, c := 0xF0CCAAF, d := 0x556678F }

/-- Before the last pass (P1, after edge 17), `IP_DONE` set. -/
def lastPassState : State :=
  { control .prep true false true [quiet, quiet] with
    keyr := keyStar, dinr := blockStar, c := 0xF866557, d := 0xAAB33C7, ki := 15 }

def joinState : State := control .prep true true true [quiet, quiet]

/-- Before round 0 (P1, after edge 19), with `RK[0]` in place. -/
def roundState : State :=
  { control .rounds true true true [quiet, quiet] with
    l := 0xCC00CCFF, r := 0xF0AAF0AA, rk := writeRk (Vector.replicate 16 0) 0 0x1B02EFFC7072 }

/-- Before round 15 (P1, after edge 34), with `RK[15]` in place. -/
def lastRoundState : State :=
  { control .rounds true true true [quiet, quiet] with
    l := 0xC28C960D, r := 0x43423234, ri := 15, rk := writeRk (Vector.replicate 16 0) 15 0xCB3D8B0E17F5 }

/-- Before `FINAL` (P1, after edge 35), the next request already there. -/
def finalState : State :=
  { control .final true true true [quiet, request, quiet] with l := 0x43423234, r := 0x0A4CD995, ki := 15, ri := 15 }

/-- The next state, if there is one. -/
def nextOf (x : Host.Outcome State Fault Refusal) : Option State :=
  match x with
  | .next t => some t
  | .fault _ => none
  | .refused _ => none

def refusalOf (x : Host.Outcome State Fault Refusal) : Option Refusal :=
  match x with
  | .next _ => none
  | .fault _ => none
  | .refused r => some r

def faultOf (x : Host.Outcome State Fault Refusal) : Option Fault :=
  match x with
  | .next _ => none
  | .fault f => some f
  | .refused _ => none

/-- What an operation returns. -/
def resultOf (i : Instr) : Option (List Bits) := (nextOf (exec i idleState)).map (·.fnOut)

/-! ### WellFormed: an ill-formed term for each check, refused by `exec` -/

theorem test_wf_permute_entry_zero : Instr.wellFormed (.permute 4 0b1011 [0]) = false ∧
    refusalOf (exec (.permute 4 0b1011 [0]) idleState) = some .invalidTableEntry := by decide
theorem test_wf_permute_entry_above : Instr.wellFormed (.permute 4 0b1011 [4, 5]) = false ∧
    refusalOf (exec (.permute 4 0b1011 [4, 5]) idleState) = some .invalidTableEntry := by decide
theorem test_wf_rotl_empty : Instr.wellFormed (.rotl 0 0 1) = false ∧
    refusalOf (exec (.rotl 0 0 1) idleState) = some .emptyVector := by decide
theorem test_wf_chunk_zero : Instr.wellFormed (.chunk 4 0b1011 0) = false ∧
    refusalOf (exec (.chunk 4 0b1011 0) idleState) = some .zeroChunkSize := by decide
theorem test_wf_hexbits_bad_digit : Instr.wellFormed (.hexbits ['1', 'g']) = false ∧
    refusalOf (exec (.hexbits ['1', 'g']) idleState) = some .notHexDigit := by decide
theorem test_wf_hexbits_digit_edges :
    ['/', ':', '@', 'G', '`', 'g'].map isHexDigit = [false, false, false, false, false, false] ∧
    ['0', '9', 'A', 'F', 'a', 'f'].map isHexDigit = [true, true, true, true, true, true] := by decide
theorem test_wf_asciibits_wide_character : Instr.wellFormed (.asciibits ['A', 'Ā']) = false ∧
    refusalOf (exec (.asciibits ['A', 'Ā']) idleState) = some .notByteCharacter := by decide

/-! ### Decoding: words written out from R71 and R72 (V18) -/

theorem test_decode_reset : decode 0b1000000 = .enabled [.reset] ∧ decode 0b1111111 = .enabled [.reset] := by decide
theorem test_decode_idle : decode 0b0000000 = .enabled [.idle] ∧ decode 0b0001110 = .enabled [.idle] := by decide
theorem test_decode_start : decode 0b0000001 = .enabled [.start] ∧ decode 0b0001111 = .enabled [.start] := by decide
theorem test_decode_ks_load :
    decode 0b0010000 = .enabled [.ksLoad, .ipLoad] ∧ decode 0b0010011 = .enabled [.ksLoad] := by decide
theorem test_decode_ks_round :
    decode 0b0011001 = .enabled [.ksRound, .ipLoad] ∧ decode 0b0011010 = .enabled [.ksRound] := by decide
theorem test_decode_ip_load : decode 0b0011100 = .enabled [.ipLoad] ∧ decode 0b0011101 = .enabled [.ipLoad] := by decide
theorem test_decode_join : decode 0b0011110 = .enabled [.join] := by decide
theorem test_decode_round : decode 0b0101110 = .enabled [.round] := by decide
theorem test_decode_final : decode 0b0111110 = .enabled [.final] := by decide
theorem test_decode_reserved :
    ([0x14, 0x15, 0x16, 0x17, 0x20, 0x2D, 0x30, 0x3D] : List (BitVec 7)).all
      (fun w => decode w == .rejected .reservedSelection) = true := by decide
theorem test_decode_eight_bits : decodeWord 0x80 = .rejected .notSevenBits := by decide
/-- The whole table: each row's own match value, read back as a table word; `0x10` is shared (log 10). -/
theorem test_decode_table_words :
    ([0x40, 0x00, 0x01, 0x10, 0x18, 0x1C, 0x1E, 0x2E, 0x3E] : List Nat).map (decodeTableWord 8) =
      [some .reset, some .idle, some .start, some .ksLoad, some .ksRound, some .ipLoad, some .join, some .round,
        some .final] := by decide
theorem test_encode :
    stepRows.map encode =
      [some 0x40, some 0x00, some 0x01, some 0x10, some 0x18, some 0x10, some 0x1E, some 0x2E, some 0x3E] ∧
    encode (.expand 0) = none := by decide
/-- A table word presented right after reset is what the next edge runs (log 12). -/
theorem test_with_fetch_word :
    ([0x40, 0x00, 0x01, 0x10, 0x18, 0x1C, 0x1E, 0x2E, 0x3E] : List Nat).map
        (fun w => stepsTaken (State.reset.withFetchWord 8 w)) =
      [[.reset], [.idle], [.start], [.ksLoad], [.ksRound], [.ipLoad], [.join], [.round], [.final]] := by decide
theorem test_with_fetch_word_runs :
    (nextOf (step (State.reset.withFetchWord 8 0x2E))).map (fun t => (t.ph, t.ri)) = some (.rounds, 1) ∧
    (nextOf (step (State.reset.withFetchWord 8 0x3E))).map (fun t => (t.ph, t.done)) = some (.idle, true) := by decide

/-! ### The functions (V1, V9, V10, V13 to V17) -/

theorem test_permute : resultOf (.permute 4 0b1011 [4, 1, 1, 2]) = some [⟨4, 0b1110⟩] := by decide +kernel
theorem test_permute_pc2_last :
    resultOf (.permute 56 0x00000000000001 Config.pc2) = some [⟨48, 0x000000000100⟩] := by decide +kernel
theorem test_rotl : resultOf (.rotl 7 0b1000011 2) = some [⟨7, 0b0001110⟩] := by decide +kernel
theorem test_rotl_whole : resultOf (.rotl 28 0xF0CCAAF 28) = some [⟨28, 0xF0CCAAF⟩] := by decide +kernel
theorem test_xor : resultOf (.xor 4 0b0110 0b1100) = some [⟨4, 0b1010⟩] := by decide +kernel
theorem test_chunk : resultOf (.chunk 48 0x6117BA866527 6) =
    some [⟨6, 0b011000⟩, ⟨6, 0b010001⟩, ⟨6, 0b011110⟩, ⟨6, 0b111010⟩, ⟨6, 0b100001⟩, ⟨6, 0b100110⟩, ⟨6, 0b010100⟩,
      ⟨6, 0b100111⟩] := by decide +kernel
/-- A short last piece, by R93's formula. -/
theorem test_chunk_short_last : resultOf (.chunk 5 0b10110 3) = some [⟨3, 0b101⟩, ⟨2, 0b10⟩] := by decide +kernel
theorem test_split :
    resultOf (.split 28 0xF0CCAAF556678F) = some [⟨28, 0xF0CCAAF⟩, ⟨28, 0x556678F⟩] := by decide +kernel
theorem test_concat :
    resultOf (.concat 32 32 0x0A4CD995 0x43423234) = some [⟨64, 0x0A4CD99543423234⟩] := by decide +kernel
theorem test_hexbits : resultOf (.hexbits ['1', 'A', 'f']) = some [⟨12, 0b000110101111⟩] := by decide +kernel
theorem test_hexbits_leading_zero : resultOf (.hexbits ['0', '1']) = some [⟨8, 0x01⟩] := by decide +kernel
theorem test_asciibits : resultOf (.asciibits ['G', 'I', 'A', 'C', 'H', 'A', 'N', 'A']) =
    some [⟨64, 0x4749414348414E41⟩] := by decide +kernel
theorem test_ks_init : resultOf (.ksInit keyStar) = some [⟨28, 0xF0CCAAF⟩, ⟨28, 0x556678F⟩] := by decide +kernel
theorem test_ks_init_unit : resultOf (.ksInit 0x0000000000000002) = some [⟨28, 0⟩, ⟨28, 0x8000000⟩] := by decide +kernel
theorem test_ks_next_rotates_by_two : resultOf (.ksNext 0xC332ABF 0x5599E3D 2) =
    some [⟨28, 0x0CCAAFF⟩, ⟨28, 0x56678F5⟩, ⟨48, 0x55FC8A42CF99⟩] := by decide +kernel
theorem test_ks_next_pass_eight : resultOf (.ksNext 0x2ABFC33 0x9E3D559 8) =
    some [⟨28, 0x557F866⟩, ⟨28, 0x3C7AAB3⟩, ⟨48, 0xE0DBEBEDE781⟩] := by decide +kernel
theorem test_derive_round_keys : resultOf (.deriveRoundKeys keyStar) =
    some [⟨48, 0x1B02EFFC7072⟩, ⟨48, 0x79AED9DBC9E5⟩, ⟨48, 0x55FC8A42CF99⟩, ⟨48, 0x72ADD6DB351D⟩,
      ⟨48, 0x7CEC07EB53A8⟩, ⟨48, 0x63A53E507B2F⟩, ⟨48, 0xEC84B7F618BC⟩, ⟨48, 0xF78A3AC13BFB⟩, ⟨48, 0xE0DBEBEDE781⟩,
      ⟨48, 0xB1F347BA464F⟩, ⟨48, 0x215FD3DED386⟩, ⟨48, 0x7571F59467E9⟩, ⟨48, 0x97C5D1FABA41⟩, ⟨48, 0x5F43B7F2E73A⟩,
      ⟨48, 0xBF918D3D3F0A⟩, ⟨48, 0xCB3D8B0E17F5⟩] := by decide +kernel
theorem test_sbox_one : ([0, 1, 2, 3, 4, 5, 6, 7] : List (Fin 8)).map (fun b => (sbox b 0b000001).toNat) =
    [0, 3, 13, 13, 14, 10, 13, 1] := by decide +kernel
theorem test_sbox_row_one : ([0, 1, 2, 3, 4, 5, 6, 7] : List (Fin 8)).map (fun b => (sbox b 0b010101).toNat) =
    [12, 1, 5, 2, 15, 13, 5, 6] := by decide +kernel
theorem test_subst : resultOf (.subst 0x6117BA866527) = some [⟨32, 0x5C82B597⟩] := by decide +kernel
theorem test_expand : resultOf (.expand 0xF0AAF0AA) = some [⟨48, 0x7A15557A1555⟩] := by decide +kernel
theorem test_expand_unit : resultOf (.expand 0x00000001) = some [⟨48, 0x800000000002⟩] := by decide +kernel
theorem test_feistel_f : resultOf (.feistelF 0xF0AAF0AA 0x1B02EFFC7072) = some [⟨32, 0x234AA9BB⟩] := by decide +kernel
theorem test_round_fn : resultOf (.roundFn 0xCC00CCFF 0xF0AAF0AA 0x1B02EFFC7072) =
    some [⟨32, 0xF0AAF0AA⟩, ⟨32, 0xEF4A6544⟩] := by decide +kernel
theorem test_ip_fn : resultOf (.ipFn blockStar) = some [⟨64, 0xCC00CCFFF0AAF0AA⟩] := by decide +kernel
theorem test_ip_fn_unit : resultOf (.ipFn 0x8000000000000000) = some [⟨64, 0x0000000001000000⟩] := by decide +kernel
theorem test_fp_fn : resultOf (.fpFn 0x0A4CD99543423234) = some [⟨64, 0x85E813540F0AB405⟩] := by decide +kernel
theorem test_fp_fn_unit : resultOf (.fpFn 0x0000000000000001) = some [⟨64, 0x0200000000000000⟩] := by decide +kernel
/-- V1, the source's known answer. -/
theorem test_encrypt_known_answer :
    resultOf (.encryptBlock blockStar keyStar) = some [⟨64, 0x85E813540F0AB405⟩] := by decide +kernel
/-- V12 row 2. -/
theorem test_encrypt_another : resultOf (.encryptBlock 0x4E6F772069732074 0x0123456789ABCDEF) =
    some [⟨64, 0x3FA40E8A984D4815⟩] := by decide +kernel

/-! ### One edge of each step (P1 to P5) -/

/-- P5 edge 27: `RESET` wins over `start`. -/
theorem test_step_reset :
    (nextOf (step resetState)).map (fun t => (t.ph, t.ki, t.ri, [t.ksLd, t.ksDone, t.ipDone, t.done])) =
      some (.idle, 0, 0, [false, false, false, false]) := by decide +kernel
/-- R74: from a reserved state too. -/
theorem test_step_reset_recovers :
    (nextOf (step (control .prep false true false [resetRequest]))).map (·.ph) = some .idle ∧
    faultOf (step (control .prep false true false [quiet])) = some .reservedControlState := by decide +kernel
/-- P1 edge 37. -/
theorem test_step_idle : nextOf (exec .idle idleState) = some idleState := by decide +kernel
/-- P1 edge 1. -/
theorem test_step_start :
    (nextOf (step startState)).map (fun t => (t.ph, t.keyr, t.dinr, t.busy)) =
      some (.prep, keyStar, blockStar, true) := by decide +kernel
/-- P3 edge 37: a new request clears the flags of the last run. -/
theorem test_step_start_clears :
    (nextOf (step { control .idle true true true [request] with ki := 15, ri := 15, done := true })).map
      (fun t => (t.ki, t.ri, t.ksLd, t.ksDone, t.ipDone, t.done)) =
        some (0, 0, false, false, false, false) := by decide +kernel
/-- P1 edge 2: two steps at one edge. -/
theorem test_step_both :
    (nextOf (step { prepState with schedule := [.both] })).map
      (fun t => (t.c, t.d, t.l, t.r, t.ksLd, t.ipDone)) =
        some (0xF0CCAAF, 0x556678F, 0xCC00CCFF, 0xF0AAF0AA, true, true) := by decide +kernel
/-- P2 edge 2, `KS` first. -/
theorem test_step_ks_load :
    (nextOf (step { prepState with schedule := [.ksOnly] })).map
      (fun t => (t.c, t.d, t.l, t.ksLd, t.ipDone)) = some (0xF0CCAAF, 0x556678F, 0, true, false) := by decide +kernel
/-- P2 edge 2, `IPU` first. -/
theorem test_step_ip_load :
    (nextOf (step { prepState with schedule := [.ipuOnly] })).map
      (fun t => (t.l, t.r, t.c, t.ksLd, t.ipDone)) = some (0xCC00CCFF, 0xF0AAF0AA, 0, false, true) := by decide +kernel
/-- P1 edge 3. -/
theorem test_step_ks_round :
    (nextOf (exec .ksRound loadedState)).map (fun t => (t.ki, t.c, t.d, readRk t.rk 0, readRk t.rk 1, t.ksDone)) =
      some (1, 0xE19955F, 0xAACCF1E, 0x1B02EFFC7072, 0, false) := by decide +kernel
/-- P1 edge 18: `KI` stays 15. -/
theorem test_step_ks_round_last :
    (nextOf (step lastPassState)).map (fun t => (t.ki, t.c, t.d, readRk t.rk 15, t.ksDone)) =
      some (15, 0xF0CCAAF, 0x556678F, 0xCB3D8B0E17F5, true) := by decide +kernel
/-- P1 edge 19. -/
theorem test_step_join : (nextOf (step joinState)).map (fun t => (t.ph, t.ri)) = some (.rounds, 0) := by decide +kernel
/-- P1 edge 20. -/
theorem test_step_round :
    (nextOf (step roundState)).map (fun t => (t.ph, t.ri, t.l, t.r)) =
      some (.rounds, 1, 0xF0AAF0AA, 0xEF4A6544) := by decide +kernel
/-- P1 edge 35: `RI` stays 15. -/
theorem test_step_round_last :
    (nextOf (step lastRoundState)).map (fun t => (t.ph, t.ri, t.l, t.r)) =
      some (.final, 15, 0x43423234, 0x0A4CD995) := by decide +kernel
/-- P1 edge 36. -/
theorem test_step_final :
    (nextOf (step finalState)).map (fun t => (t.ph, t.done, t.busy, t.blockOut)) =
      some (.idle, true, false, some 0x85E813540F0AB405) := by decide +kernel
/-- P4 edge 10: a request while busy does nothing. -/
theorem test_step_busy_ignores_start :
    (nextOf (step { loadedState with hostInputs := [request], ipDone := true })).map (fun t => (t.ph, t.ki, t.dinr)) =
      some (.prep, 1, blockStar) := by decide +kernel
/-- Not enabled, not taken (log 8). -/
theorem test_step_not_enabled : refusalOf (exec .final idleState) = some .notEnabled := by decide +kernel

/-! ### Witnesses: for each statement with hypotheses, concrete values that meet all of them, at the ends of a range -/

/-- `n` edges, if each has a next state. -/
def after : Nat → State → Option State
  | 0, s => some s
  | n + 1, s => (nextOf (step s)).bind (after n)

theorem next_of_nextOf {x : Host.Outcome State Fault Refusal} {t : State} (h : nextOf x = some t) : x = .next t := by
  cases x <;> simp [nextOf] at h
  rw [h]

theorem reachable_after {n : Nat} : ∀ {s t : State}, Reachable s → after n s = some t → Reachable t := by
  induction n with
  | zero => intro s t hs h; cases h; exact hs
  | succ n ih =>
    intro s t hs h
    obtain ⟨u, hu, hn⟩ := Option.bind_eq_some_iff.mp h
    exact ih (.edge hs (next_of_nextOf hu)) hn

/-- A reset edge, then a request and quiet edges (P1). -/
def programState : State :=
  { resetState with hostInputs := resetRequest :: request :: List.replicate 36 quiet, schedule := [.both] }

/-- `programState` after its reset edge. -/
def afterReset : State := State.endEdge (resetEffect programState) [.reset]

theorem reachable_afterReset : Reachable afterReset := .reset (s := programState) rfl rfl

theorem run_after : ∀ {n : Nat} {s t : State}, after n s = some t → Host.Core.run core n s = .next t := by
  intro n
  induction n with
  | zero => intro s t h; cases h; rfl
  | succ n ih =>
    intro s t h
    obtain ⟨u, hu, hn⟩ := Option.bind_eq_some_iff.mp h
    have h1 : core.step s = .next u := next_of_nextOf hu
    simp only [Host.Core.run, h1]
    exact ih hn

/-- A request, then quiet edges; `KS` and `IPU` at once at the second edge (P1 from edge 1). -/
def requestState : State :=
  { idleState with hostInputs := request :: List.replicate 36 quiet, schedule := [.both] }

/-- Evaluates a run of `k` edges from `requestState`. -/
def runShows (k : Nat) (f : State → Bool) : Bool :=
  match after k requestState with
  | some u => (trace k requestState).tail.all (fun e => decide (Instr.start ∉ e ∧ Instr.reset ∉ e)) && f u
  | none => false

theorem inRun_of_runShows {k : Nat} {f : State → Bool} (h : runShows k f = true) :
    ∃ u, InRun k requestState u ∧ f u = true := by
  unfold runShows at h
  split at h
  · rename_i u hu
    simp only [Bool.and_eq_true, List.all_eq_true, decide_eq_true_eq] at h
    exact ⟨u, ⟨by decide, run_after hu, h.1⟩, h.2⟩
  · simp at h

/-- The run of P1: `KS_LOAD` and `IP_LOAD` at edge 2, `KS_ROUND` at edge 18, `ROUND` at edge 35, `FINAL` at edge 36. -/
theorem witness_in_run :
    (∃ k s u, InRun k s u ∧ Instr.ksLoad ∈ stepsTaken u ∧ Instr.ipLoad ∈ stepsTaken u) ∧
    (∃ k s u, InRun k s u ∧ Instr.ksRound ∈ stepsTaken u) ∧
    (∃ k s u, InRun k s u ∧ Instr.round ∈ stepsTaken u) ∧
    (∃ k s u, InRun k s u ∧ Instr.final ∈ (trace k s).flatten) := by
  refine ⟨?_, ?_, ?_, ?_⟩
  · obtain ⟨u, hu, h⟩ := inRun_of_runShows (k := 1)
      (f := fun u => decide (Instr.ksLoad ∈ stepsTaken u ∧ Instr.ipLoad ∈ stepsTaken u)) (by decide +kernel)
    exact ⟨_, _, u, hu, (of_decide_eq_true h).1, (of_decide_eq_true h).2⟩
  · obtain ⟨u, hu, h⟩ := inRun_of_runShows (k := 17)
      (f := fun u => decide (Instr.ksRound ∈ stepsTaken u)) (by decide +kernel)
    exact ⟨_, _, u, hu, of_decide_eq_true h⟩
  · obtain ⟨u, hu, h⟩ := inRun_of_runShows (k := 34)
      (f := fun u => decide (Instr.round ∈ stepsTaken u)) (by decide +kernel)
    exact ⟨_, _, u, hu, of_decide_eq_true h⟩
  · obtain ⟨u, hu, h⟩ := inRun_of_runShows (k := 36)
      (f := fun _ => decide (Instr.final ∈ (trace 36 requestState).flatten)) (by decide +kernel)
    exact ⟨_, _, u, hu, of_decide_eq_true h⟩

theorem reachable_of_check {k : Nat} {f : State → Bool}
    (h : (match after k afterReset with
      | some u => f u
      | none => false) = true) : ∃ u, Reachable u ∧ f u = true := by
  split at h
  · rename_i u hu
    exact ⟨u, reachable_after reachable_afterReset hu, h⟩
  · simp at h

theorem witness_SelectWordAndStepTable : enables 0x10 .ipLoad = true ∧ enables 0x7F .reset = true := by decide

theorem witness_EnabledSets :
    (idleState.reserved = false ∧ idleState.ports.rst = false ∧ idleState.ph = .idle ∧ idleState.ports.start = false) ∧
    (startState.reserved = false ∧ startState.ports.start = true) ∧
    (resetState.reserved = false ∧ resetState.ports.rst = true) ∧
    (prepState.reserved = false ∧ prepState.ph = .prep ∧ prepState.ksLd = false ∧ prepState.ipDone = false) ∧
    (loadedState.reserved = false ∧ loadedState.ksLd = true ∧ loadedState.ksDone = false ∧ loadedState.ipDone = false) ∧
    (lastPassState.reserved = false ∧ lastPassState.ksDone = false ∧ lastPassState.ipDone = true) ∧
    (joinState.reserved = false ∧ joinState.ksLd = true ∧ joinState.ksDone = true ∧ joinState.ipDone = true) ∧
    (roundState.reserved = false ∧ roundState.ph = .rounds) ∧
    (finalState.reserved = false ∧ finalState.ph = .final) := by decide
theorem witness_EnabledSets_flags :
    (let s := control .prep false false true [quiet];
      s.reserved = false ∧ s.ports.rst = false ∧ s.ph = .prep ∧ s.ksLd = false ∧ s.ipDone = true) ∧
    (let s := control .prep true true false [quiet];
      s.reserved = false ∧ s.ports.rst = false ∧ s.ph = .prep ∧ s.ksLd = true ∧ s.ksDone = true ∧ s.ipDone = false) ∧
    enabledSet prepState = .enabled [.ksLoad, .ipLoad] := by decide
theorem witness_EnabledSets_reachable : ∃ s : State, Reachable s := ⟨_, reachable_afterReset⟩

theorem witness_ReservedStatesFaultAndResetRecovers :
    (control .prep false true false [quiet]).reserved = true ∧
    (control .rounds true true false [quiet]).reserved = true ∧
    (control .final false true true [quiet]).reserved = true ∧
    State.reserved { control .prep false false false [quiet] with done := true } = true ∧
    State.reserved { control .idle true true true [quiet] with done := true } = false ∧
    Instr.agent .round ≠ none ∧
    (control .prep false true false [resetRequest]).ports.rst = true := by decide

theorem witness_DecodeEncodeAgree :
    (encodeWith 0x7F .ipLoad = some 0x1D ∧ reservedSel 0x1D = false) ∧
    (encodeWith 0 .reset = some 0x40 ∧ reservedSel 0x40 = false) ∧
    (decode 0x18 = .enabled [.ksRound, .ipLoad] ∧ Instr.ipLoad ∈ [Instr.ksRound, Instr.ipLoad]) ∧
    128 ≤ 0x80 := by decide

theorem witness_StepRunsTheDecodedSteps :
    (idleState.reserved = false ∧ enabledSet idleState = .enabled [.idle] ∧ exec .idle idleState = .next idleState) ∧
    (∃ t, enabledSet joinState = .enabled [.join] ∧ exec .join joinState = .next t) :=
  ⟨⟨by decide, by decide, rfl⟩, _, by decide, rfl⟩
theorem witness_StepRunsTheDecodedSteps_choices :
    (∃ (s t : State), enabledSet s = .enabled [.ksLoad, .ipLoad] ∧ s.choice = .ksOnly ∧ exec .ksLoad s = .next t) ∧
    (∃ (s t : State), enabledSet s = .enabled [.ksLoad, .ipLoad] ∧ s.choice = .ipuOnly ∧ exec .ipLoad s = .next t) ∧
    (∃ (s t u : State), enabledSet s = .enabled [.ksRound, .ipLoad] ∧ s.choice = .both ∧ exec .ksRound s = .next t ∧
      exec .ipLoad t = .next u) :=
  ⟨⟨{ prepState with schedule := [.ksOnly] }, _, by decide, by decide, rfl⟩,
    ⟨{ prepState with schedule := [.ipuOnly] }, _, by decide, by decide, rfl⟩,
    ⟨{ loadedState with schedule := [.both] }, _, _, by decide, by decide, rfl, rfl⟩⟩

theorem witness_BothAtOnceEqualsEitherOrder :
    enabledSet prepState = .enabled [.ksLoad, .ipLoad] ∧ enabledSet loadedState = .enabled [.ksRound, .ipLoad] ∧
    enabledSet { loadedState with ki := 15 } = .enabled [.ksRound, .ipLoad] := by decide

theorem witness_PermuteCopiesSourcePositions :
    (∀ e ∈ [4, 1, 1, 2], 1 ≤ e ∧ e ≤ 4) ∧ 3 < [4, 1, 1, 2].length := by decide
theorem witness_RotlMovesPositionsLeft : 1 ≤ 1 ∧ (0 < 1) ∧ 27 < 28 := by decide
theorem witness_XorIsBitwise : 0 < 4 ∧ 3 < 4 := by decide
theorem witness_ChunkGivesConsecutivePieces :
    1 ≤ 3 ∧ 1 < (chunk (0b10110 : BitVec 5) 3).length ∧ 1 < min 3 (5 - 1 * 3) := by decide
theorem witness_SplitIsContiguous : 0 < 28 ∧ 27 < 28 := by decide
theorem witness_ConcatAppendsPositions : (1 < 2) ∧ (2 < 3) := by decide
theorem witness_HexBitsReadsDigits :
    ['0', '9', 'A', 'F', 'a', 'f'].all isHexDigit = true ∧ 5 < ['0', '9', 'A', 'F', 'a', 'f'].length ∧ 3 < 4 := by
  decide
theorem witness_AsciiBitsReadsCharacters :
    [Char.ofNat 0, 'G', Char.ofNat 255].all isByteChar = true ∧ 2 < [Char.ofNat 0, 'G', Char.ofNat 255].length ∧
    7 < 8 := by decide
theorem witness_TextFormsAgree : [Char.ofNat 0, 'I', Char.ofNat 255].all isByteChar = true := by decide
theorem witness_PermuteLaws :
    ((∀ e ∈ Config.e, 1 ≤ e ∧ e ≤ 32) ∧ 47 < Config.e.length) ∧
    (Config.ip.length = 64 ∧ Config.fp.length = 64 ∧ (∀ e ∈ Config.ip, 1 ≤ e ∧ e ≤ 64) ∧
      (∀ e ∈ Config.fp, 1 ≤ e ∧ e ≤ 64) ∧ ∀ i < 64, Config.fp.getD (Config.ip.getD i 0 - 1) 0 = i + 1) := by
  decide +kernel
theorem witness_FunctionsArePureAndTotal :
    (Instr.agent (.chunk 5 0b10110 3) = none ∧ Instr.wellFormed (.chunk 5 0b10110 3) = true) ∧
    Instr.wellFormed (.rotl 0 0 1) = false ∧
    (∃ e ∈ [0], e = 0 ∨ 4 < e) ∧ (∃ e ∈ [4, 5], e = 0 ∨ 4 < e) := by decide
theorem witness_StepsIgnoreFunctionResults :
    (Instr.agent .idle ≠ none ∧ exec .idle idleState = .next idleState) ∧ (∃ t, step roundState = .next t) :=
  ⟨⟨by decide, rfl⟩, _, rfl⟩

/-- Two keys that differ in every parity bit and in no other (V12 row 1). -/
theorem parity_keys : ∀ i < 64, i % 8 ≠ 7 → (0 : Block).getMsbD i = (0x0101010101010101 : Block).getMsbD i := by
  decide +kernel
theorem witness_KsInitSelectsHalves :
    27 < 28 ∧ ∀ i < 64, i % 8 ≠ 7 → (0 : Block).getMsbD i = (0x0101010101010101 : Block).getMsbD i :=
  ⟨by decide, parity_keys⟩
theorem witness_KsNextRotatesThenSelects : 27 < 28 ∧ 23 < 24 := by decide
theorem witness_DeriveRoundKeysRunsSixteenPasses :
    ∀ i < 64, i % 8 ≠ 7 → (0 : Block).getMsbD i = (0x0101010101010101 : Block).getMsbD i := parity_keys
theorem witness_SubstAppliesTheEightBoxes : 3 < 4 := by decide
theorem witness_ExpandCopiesByTableE : 47 < 48 ∧ 5 < 6 := by decide
theorem witness_FeistelFComposesInOrder :
    31 < 32 ∧ xorBits (expand 0) 0 = xorBits (expand 0xFFFFFFFF) 0xFFFFFFFFFFFF := by decide +kernel
theorem witness_LawsTheSpecInfersOfTheFunctions :
    roundFn 0xCC00CCFF 0xF0AAF0AA 0x1B02EFFC7072 = (0xF0AAF0AA, 0xEF4A6544) := by decide +kernel
theorem witness_IpFnPermutesByIp : 0 < 64 ∧ 63 < 64 := by decide
theorem witness_FpFnPermutesByFp : 0 < 64 ∧ 63 < 64 := by decide
theorem witness_EncryptBlockRunsThePipeline :
    ∀ i < 64, i % 8 ≠ 7 → (0 : Block).getMsbD i = (0x0101010101010101 : Block).getMsbD i := parity_keys

theorem witness_ResetStep : resetState.ports.rst = true ∧ idleState.ports.rst = false := by decide
theorem witness_HoldingResetGivesTheResetState :
    let s := control .rounds true true true [resetRequest, resetRequest]
    1 + 1 ≤ s.hostInputs.length ∧ ∀ p ∈ s.hostInputs.take (1 + 1), p.rst = true := by decide
theorem witness_IdleStep :
    (idleState.ports.rst = false ∧ idleState.ph = .idle ∧ idleState.ports.start = false) ∧
    exec .idle idleState = .next idleState := ⟨by decide, rfl⟩
theorem witness_IdleStep_run :
    idleState.ph = .idle ∧ 2 ≤ idleState.hostInputs.length ∧
    ∀ p ∈ idleState.hostInputs.take 2, p.rst = false ∧ p.start = false := by decide
theorem witness_StartStep :
    (startState.ports.rst = false ∧ startState.ph = .idle ∧ startState.ports.start = true) ∧
    (∃ t, exec .start startState = .next t) := ⟨by decide, _, rfl⟩
theorem witness_StartStep_ports :
    (idleState.hostInputs = quiet :: [quiet] ∧ { quiet with keyIn := keyStar }.rst = quiet.rst ∧
      { quiet with keyIn := keyStar }.start = quiet.start ∧ Instr.start ∉ stepsTaken idleState) ∧
    (let s := { roundState with hostInputs := [request] };
      s.hostInputs = request :: [] ∧ { request with blockIn := 0 }.rst = request.rst ∧
      { request with blockIn := 0 }.start = request.start ∧ Instr.start ∉ stepsTaken s) := by decide
theorem witness_KsLoadStep :
    (prepState.ports.rst = false ∧ prepState.ph = .prep ∧ prepState.ksLd = false ∧ prepState.ksDone = false ∧
      prepState.done = false) ∧
    (∃ t, exec .ksLoad prepState = .next t) ∧ prepState.keyr = 0x133457799BBCDFF1 := ⟨by decide, ⟨_, rfl⟩, rfl⟩
theorem witness_KsRoundStep :
    (loadedState.ports.rst = false ∧ loadedState.ph = .prep ∧ loadedState.ksLd = true ∧ loadedState.ksDone = false ∧
      loadedState.done = false) ∧
    ksNext loadedState.c loadedState.d (counterIndex loadedState.ki) = (0xE19955F, 0xAACCF1E, 0x1B02EFFC7072) ∧
    (∃ t, exec .ksRound loadedState = .next t) ∧
    loadedState.c = 0xF0CCAAF ∧ loadedState.d = 0x556678F ∧ loadedState.ki = 0 :=
  ⟨by decide, by decide +kernel, ⟨_, rfl⟩, rfl, rfl, rfl⟩
/-- `KI` at 14 counts on, at 15 ends the schedule. -/
theorem witness_KsRoundStep_counter :
    (let s := { lastPassState with ki := 14 };
      s.ports.rst = false ∧ s.ph = .prep ∧ s.ksLd = true ∧ s.ksDone = false ∧ s.done = false ∧ s.ki ≠ 15) ∧
    (lastPassState.ports.rst = false ∧ lastPassState.ph = .prep ∧ lastPassState.ksLd = true ∧
      lastPassState.ksDone = false ∧ lastPassState.done = false ∧ lastPassState.ki = 15) := by decide
theorem witness_KsRoundStep_done : joinState.ksDone = true ∧ (∃ t, step joinState = .next t) ∧
    Instr.start ∉ stepsTaken joinState ∧ Instr.reset ∉ stepsTaken joinState := ⟨rfl, ⟨_, rfl⟩, by decide⟩
theorem witness_IpLoadStep_kept : (∃ t, step joinState = .next t) ∧ joinState.ipDone = true ∧
    Instr.round ∉ stepsTaken joinState ∧ Instr.start ∉ stepsTaken joinState ∧ Instr.reset ∉ stepsTaken joinState :=
  ⟨⟨_, rfl⟩, by decide⟩
theorem witness_IpLoadStep :
    (prepState.ports.rst = false ∧ prepState.ph = .prep ∧ prepState.ipDone = false ∧
      (prepState.ksDone = true → prepState.ksLd = true) ∧ prepState.done = false) ∧
    (∃ t, exec .ipLoad prepState = .next t) ∧ prepState.dinr = 0x0123456789ABCDEF := ⟨by decide, ⟨_, rfl⟩, rfl⟩
theorem witness_JoinStep :
    (joinState.ports.rst = false ∧ joinState.ph = .prep ∧ joinState.ksLd = true ∧ joinState.ksDone = true ∧
      joinState.ipDone = true ∧ joinState.done = false) ∧
    (∃ t, exec .join joinState = .next t) := ⟨by decide, _, rfl⟩
theorem witness_JoinStep_leaves_prep :
    (∃ t, step joinState = .next t ∧ joinState.ph = .prep ∧ t.ph ≠ .prep) ∧
    (∃ t, step (control .prep true true false [resetRequest]) = .next t ∧ t.ph ≠ .prep) :=
  ⟨⟨joinEffect joinState |>.endEdge [.join], rfl, by decide⟩,
    ⟨resetEffect (control .prep true true false [resetRequest]) |>.endEdge [.reset], rfl, by decide⟩⟩
/-- `JOIN` in a reachable state that holds `K*` and `P*`. -/
theorem witness_JoinStep_reachable : ∃ s t : State, Reachable s ∧ exec .join s = .next t ∧
    t.keyr = 0x133457799BBCDFF1 ∧ t.dinr = 0x0123456789ABCDEF := by
  obtain ⟨s, hs, h⟩ := reachable_of_check (k := 18)
    (f := fun s => match exec .join s with
      | .next t => decide (t.keyr = 0x133457799BBCDFF1 ∧ t.dinr = 0x0123456789ABCDEF)
      | .fault _ => false
      | .refused _ => false) (by decide +kernel)
  split at h
  · rename_i t ht
    exact ⟨s, t, hs, ht, of_decide_eq_true h⟩
  · simp at h
  · simp at h
theorem witness_RoundStep :
    (roundState.ports.rst = false ∧ roundState.ph = .rounds ∧ roundState.ksLd = true ∧ roundState.ksDone = true ∧
      roundState.ipDone = true ∧ roundState.done = false) ∧
    (∃ t, exec .round roundState = .next t) ∧
    (roundState.l = 0xCC00CCFF ∧ roundState.r = 0xF0AAF0AA ∧ roundState.ri = 0 ∧
      readRk roundState.rk 0 = 0x1B02EFFC7072) := ⟨by decide, ⟨_, rfl⟩, by decide⟩
theorem witness_RoundStep_last :
    lastRoundState.ports.rst = false ∧ lastRoundState.ph = .rounds ∧ lastRoundState.ksLd = true ∧
      lastRoundState.ksDone = true ∧ lastRoundState.ipDone = true ∧ lastRoundState.done = false ∧
      lastRoundState.ri = 15 := by decide
theorem witness_FinalStep :
    (finalState.ports.rst = false ∧ finalState.ph = .final ∧ finalState.ksLd = true ∧ finalState.ksDone = true ∧
      finalState.ipDone = true ∧ finalState.done = false) ∧
    (∃ t, exec .final finalState = .next t) ∧ finalState.l = 0x43423234 ∧ finalState.r = 0x0A4CD995 :=
  ⟨by decide, ⟨_, rfl⟩, rfl, rfl⟩
theorem witness_FinalStep_reachable : ∃ s : State, Reachable s ∧ s.ph = .final := by
  obtain ⟨s, hs, h⟩ := reachable_of_check (k := 35) (f := fun s => decide (s.ph = .final)) (by decide +kernel)
  exact ⟨s, hs, of_decide_eq_true h⟩
theorem witness_StepsOutsideTheEnabledSetAreRefused :
    Instr.agent .idle ≠ none ∧ enabledSet idleState = .enabled [.idle] ∧ Instr.idle ∈ [Instr.idle] ∧
    Instr.agent .final ≠ none ∧ Instr.final ∉ [Instr.idle] := by decide

theorem witness_StartWhileBusyIsIgnored :
    (roundState.ph ≠ .idle ∧ roundState.hostInputs = quiet :: [quiet] ∧ quiet.rst = false ∧ request.rst = false) ∧
    (∃ t, finalState.ports.rst = false ∧ finalState.ph = .final ∧ step finalState = .next t ∧
      t.ports.rst = false ∧ t.ports.start = true) :=
  ⟨by decide, State.endEdge (finalEffect finalState) [.final], by decide, by decide, rfl, by decide, by decide⟩
theorem witness_ResetBeatsStart :
    (resetState.ports.rst = true ∧ resetState.ports.start = true) ∧
    (startState.ports.rst = false ∧ startState.ports.start = true ∧ startState.ph = .idle) ∧
    (let s := { roundState with hostInputs := [request] };
      s.hostInputs = request :: [] ∧ request.rst = false ∧ request.start = true ∧ s.ph ≠ .idle) := by decide
theorem witness_OutputPorts :
    { idleState with done := true }.done = true ∧ idleState.done = false ∧ Reachable afterReset :=
  ⟨rfl, rfl, reachable_afterReset⟩

theorem witness_PhaseMovesInOrder_enabled :
    (startState.ports.rst = false ∧ enabledSet startState = .enabled [.start] ∧ startState.ph = .idle) ∧
    (prepState.ports.rst = false ∧ enabledSet prepState = .enabled [.ksLoad, .ipLoad] ∧ prepState.ph = .prep) ∧
    (roundState.ports.rst = false ∧ enabledSet roundState = .enabled [.round] ∧ roundState.ph = .rounds) ∧
    (finalState.ports.rst = false ∧ enabledSet finalState = .enabled [.final] ∧ finalState.ph = .final) := by decide
theorem witness_PhaseMovesInOrder :
    (∃ t, step resetState = .next t ∧ resetState.ports.rst = true) ∧
    (∃ t, step startState = .next t ∧ startState.ports.rst = false ∧ startState.ph = .idle) ∧
    (∃ t, step joinState = .next t ∧ joinState.ports.rst = false ∧ joinState.ph = .prep) ∧
    (∃ t, step lastRoundState = .next t ∧ lastRoundState.ports.rst = false ∧ lastRoundState.ph = .rounds) ∧
    (∃ t, step finalState = .next t ∧ finalState.ports.rst = false ∧ finalState.ph = .final) :=
  ⟨⟨_, rfl, by decide⟩, ⟨_, rfl, by decide⟩, ⟨_, rfl, by decide⟩, ⟨_, rfl, by decide⟩, ⟨_, rfl, by decide⟩⟩
theorem witness_CountersNeverWrap :
    (∃ t, step resetState = .next t ∧ Instr.reset ∈ stepsTaken resetState) ∧
    (∃ t, step startState = .next t ∧ Instr.start ∈ stepsTaken startState) ∧
    (∃ t, step joinState = .next t ∧ Instr.join ∈ stepsTaken joinState) ∧
    (∃ t, step idleState = .next t ∧ Instr.reset ∉ stepsTaken idleState ∧ Instr.start ∉ stepsTaken idleState ∧
      Instr.ksRound ∉ stepsTaken idleState ∧ Instr.join ∉ stepsTaken idleState ∧
      Instr.round ∉ stepsTaken idleState) :=
  ⟨⟨_, rfl, by decide⟩, ⟨_, rfl, by decide⟩, ⟨_, rfl, by decide⟩, ⟨_, rfl, by decide⟩⟩
theorem witness_CountersNeverWrap_ends :
    (∃ t, step lastPassState = .next t ∧ Instr.ksRound ∈ stepsTaken lastPassState ∧ lastPassState.ki = 15) ∧
    (∃ s t, step s = .next t ∧ Instr.ksRound ∈ stepsTaken s ∧ s.ki = 14 ∧ s.ki ≠ 15) ∧
    (∃ t, step lastRoundState = .next t ∧ Instr.round ∈ stepsTaken lastRoundState ∧ lastRoundState.ri = 15) ∧
    (∃ s t, step s = .next t ∧ Instr.round ∈ stepsTaken s ∧ s.ri = 14 ∧ s.ri ≠ 15) :=
  ⟨⟨_, rfl, by decide⟩, ⟨{ lastPassState with ki := 14 }, _, rfl, by decide⟩, ⟨_, rfl, by decide⟩,
    ⟨{ lastRoundState with ri := 14 }, _, rfl, by decide⟩⟩
theorem witness_FlagsSetAndCleared : ∃ t, step lastPassState = .next t := ⟨_, rfl⟩
theorem witness_DataRegistersWrittenOnlyByTheirSteps :
    (∃ t, step lastPassState = .next t ∧ Instr.reset ∉ stepsTaken lastPassState ∧
      Instr.start ∉ stepsTaken lastPassState ∧ Instr.ipLoad ∉ stepsTaken lastPassState ∧
      Instr.round ∉ stepsTaken lastPassState ∧ Instr.final ∉ stepsTaken lastPassState ∧
      ¬(Instr.ksRound ∈ stepsTaken lastPassState ∧ lastPassState.ki.toNat = (14 : Fin 16).val)) ∧
    (∃ t, step finalState = .next t ∧ Instr.reset ∉ stepsTaken finalState ∧
      Instr.ksLoad ∉ stepsTaken finalState ∧ Instr.ksRound ∉ stepsTaken finalState) :=
  ⟨⟨_, rfl, by decide⟩, ⟨_, rfl, by decide⟩⟩

theorem consistent_idleState : Consistent idleState := by
  constructor <;>
    simp [idleState, control, PrepFlags, JoinedResults, RoundsSoFar, BusyNotDone, ResultWhenDone, KeysSoFar,
      KeysWhenDone, BlockWhenDone, RoundsWhenDone, State.busy, State.donePort]
theorem witness_EveryEdgeKeepsTheInvariant : Consistent idleState ∧ ∃ t, step idleState = .next t :=
  ⟨consistent_idleState, _, rfl⟩
theorem witness_ReachableStatesAreConsistent : ∃ s : State, Reachable s := ⟨_, reachable_afterReset⟩

/-- A reachable state with the key schedule complete: `RESET`, `START`, and sixteen passes on 18 edges. Only its flags
are evaluated. -/
theorem reachable_keys_done : ∃ s t : State, Reachable s ∧ s.ksDone = true ∧ step s = .next t ∧
    Instr.start ∉ stepsTaken s ∧ Instr.reset ∉ stepsTaken s := by
  obtain ⟨s, hs, h⟩ := reachable_of_check (k := 18)
    (f := fun s => s.ksDone && (nextOf (step s)).isSome && stepsTaken s == [.join]) (by decide +kernel)
  simp only [Bool.and_eq_true, beq_iff_eq, Option.isSome_iff_exists] at h
  obtain ⟨⟨hd, t, ht⟩, hj⟩ := h
  exact ⟨s, t, hs, hd, next_of_nextOf ht, by simp [hj], by simp [hj]⟩
theorem witness_KeyScheduleGuarantee :
    (∃ s t : State, Reachable s ∧ s.ksDone = true ∧ step s = .next t ∧ Instr.start ∉ stepsTaken s ∧
      Instr.reset ∉ stepsTaken s) ∧
    ∀ i < 64, i % 8 ≠ 7 → (0 : Block).getMsbD i = (0x0101010101010101 : Block).getMsbD i :=
  ⟨reachable_keys_done, parity_keys⟩
theorem witness_NoRuntimeException : ∃ s : State, Reachable s := ⟨_, reachable_afterReset⟩

theorem witness_EveryScheduleReachesTheSameJoin :
    let s := { idleState with hostInputs := request :: List.replicate 19 quiet }
    s.ph = .idle ∧ s.hostInputs = request :: List.replicate 19 quiet ∧ request.rst = false ∧ request.start = true ∧
    19 ≤ (List.replicate 19 quiet).length ∧ ∀ q ∈ List.replicate 19 quiet, q.rst = false := by decide
theorem witness_RunEncryptsTheSampledBlock :
    let s := { idleState with hostInputs := request :: List.replicate 36 quiet }
    s.ph = .idle ∧ s.hostInputs = request :: List.replicate 36 quiet ∧ request.rst = false ∧ request.start = true ∧
    36 ≤ (List.replicate 36 quiet).length ∧ ∀ q ∈ List.replicate 36 quiet, q.rst = false := by decide
theorem witness_RunsAreIndependent :
    let s := { startState with keyr := keyStar, ksDone := true, done := true, dout := 1 }
    startState.ph = .idle ∧ s.ph = .idle ∧ startState.hostInputs = s.hostInputs ∧ startState.schedule = s.schedule ∧
    startState.edge = s.edge ∧ startState.draws = s.draws ∧ startState.ports.rst = false ∧
    startState.ports.start = true ∧ ∃ t, Host.Core.run core (0 + 1) startState = .next t :=
  ⟨rfl, rfl, rfl, rfl, rfl, rfl, rfl, rfl, _, rfl⟩

end Sys2Proof.Tests
end

section
/-! SUPPORT. What a clock edge can do, said once: the control states that are not reserved
(spec/30_encoding.md rule R74), the steps each of them enables and the schedule takes (R73, R211), and the state
those steps leave. -/

namespace Sys2Proof.Machine

/-! ### The fields of the select word (R71) -/

section SelectWord
variable (rst : Bool) (ph : BitVec 2) (ksLd ksDone ipDone start : Bool)

@[simp] theorem selRst_mkSel : selRst (mkSel rst ph ksLd ksDone ipDone start) = rst := by
  revert rst ph ksLd ksDone ipDone start; decide

@[simp] theorem selPh_mkSel : selPh (mkSel rst ph ksLd ksDone ipDone start) = ph := by
  revert rst ph ksLd ksDone ipDone start; decide

@[simp] theorem selKsLd_mkSel : selKsLd (mkSel rst ph ksLd ksDone ipDone start) = ksLd := by
  revert rst ph ksLd ksDone ipDone start; decide

@[simp] theorem selKsDone_mkSel : selKsDone (mkSel rst ph ksLd ksDone ipDone start) = ksDone := by
  revert rst ph ksLd ksDone ipDone start; decide

@[simp] theorem selIpDone_mkSel : selIpDone (mkSel rst ph ksLd ksDone ipDone start) = ipDone := by
  revert rst ph ksLd ksDone ipDone start; decide

end SelectWord

/-- The control states outside R74's list. -/
theorem State.reserved_eq_false_iff (s : State) :
    s.reserved = false ↔
      s.ports.rst = true ∨ s.ph = .idle ∨
        s.done = false ∧
          (s.ph = .prep ∧ (s.ksDone = true → s.ksLd = true) ∨
            (s.ph = .rounds ∨ s.ph = .final) ∧ s.ksLd = true ∧ s.ksDone = true ∧ s.ipDone = true) := by
  simp only [State.reserved, State.sel, reservedSel, selRst_mkSel, selPh_mkSel, selKsLd_mkSel, selKsDone_mkSel,
    selIpDone_mkSel]
  cases s.ph <;> cases s.ports.rst <;> cases s.done <;> cases s.ksLd <;> simp [Phase.code]

/-! ### The enabled steps (R27, R73) -/

/-- The steps of `PREP`: `JOIN` once both agents have finished, else one step for each agent that has not. -/
def prepSteps (ksLd ksDone ipDone : Bool) : List Instr :=
  if ksDone && ipDone then [.join]
  else (if ksDone then [] else if ksLd then [.ksRound] else [.ksLoad]) ++ (if ipDone then [] else [.ipLoad])

/-- The steps a phase enables. -/
def phaseSteps (ph : Phase) (ksLd ksDone ipDone start : Bool) : List Instr :=
  match ph with
  | .idle => if start then [.start] else [.idle]
  | .prep => prepSteps ksLd ksDone ipDone
  | .rounds => [.round]
  | .final => [.final]

/-- The steps enabled in a control state that is not reserved. -/
def State.enabledSteps (s : State) : List Instr :=
  if s.ports.rst then [.reset] else phaseSteps s.ph s.ksLd s.ksDone s.ipDone s.ports.start

theorem decode_mkSel (rst : Bool) (ph : Phase) (ld kd ip st : Bool)
    (h : reservedSel (mkSel rst ph.code ld kd ip st) = false) :
    decode (mkSel rst ph.code ld kd ip st) =
      .enabled (if rst then [.reset] else phaseSteps ph ld kd ip st) := by
  revert rst ld kd ip st; cases ph <;> decide

theorem enabledSet_eq_enabled_iff (s : State) (is : List Instr) :
    enabledSet s = .enabled is ↔ s.reserved = false ∧ is = s.enabledSteps := by
  unfold enabledSet
  cases h : s.reserved with
  | true => simp
  | false =>
    have hsel : reservedSel s.sel = false := by
      rw [State.reserved, Bool.or_eq_false_iff] at h
      exact h.1
    have hdec : decode s.sel = .enabled s.enabledSteps := decode_mkSel _ _ _ _ _ _ hsel
    simp [hdec, eq_comm]

/-! ### The effect of the steps taken -/

/-- What a step writes; a function (class `FN`) is no step and is never taken. -/
@[simp] def stepEffect : Instr → State → State
  | .reset => resetEffect
  | .idle => idleEffect
  | .start => startEffect
  | .ksLoad => ksLoadEffect
  | .ksRound => ksRoundEffect
  | .ipLoad => ipLoadEffect
  | .join => joinEffect
  | .round => roundEffect
  | .final => finalEffect
  | _ => id

/-- The effects of the steps taken at one edge, one after the other (log 11). -/
def takeSteps (is : List Instr) (s : State) : State :=
  is.foldl (fun u i => stepEffect i u) s

@[simp] theorem takeSteps_nil (s : State) : takeSteps [] s = s := rfl

@[simp] theorem takeSteps_cons (i : Instr) (is : List Instr) (s : State) :
    takeSteps (i :: is) s = takeSteps is (stepEffect i s) := rfl

theorem exec_eq_performStep {i : Instr} (hi : i.agent ≠ none) (s : State) :
    exec i s = performStep i (stepEffect i) s := by
  cases i
  case reset | idle | start | ksLoad | ksRound | ipLoad | join | round | final => rfl
  all_goals exact absurd rfl hi

/-- A step that its select word enables leaves the state its effect says, and no other (R72, R74). -/
theorem exec_next_iff {i : Instr} (hi : i.agent ≠ none) (s t : State) :
    exec i s = .next t ↔ s.reserved = false ∧ enables s.sel i = true ∧ t = stepEffect i s := by
  rw [exec_eq_performStep hi, performStep_next_iff]

theorem eq_takeSteps_of_runSteps {is : List Instr} {s t : State} (hi : ∀ i ∈ is, i.agent ≠ none)
    (h : runSteps is s = .next t) : t = takeSteps is s := by
  induction is generalizing s with
  | nil => simpa [eq_comm] using h
  | cons i is ih =>
    obtain ⟨u, hu, hrest⟩ := (runSteps_cons_next_iff i is s t).1 h
    obtain ⟨-, -, rfl⟩ := (exec_next_iff (hi i (by simp)) s u).1 hu
    exact ih (fun j hj => hi j (by simp [hj])) hrest

theorem mem_of_mem_chooseSteps {x : SchedChoice} {is : List Instr} {i : Instr} (h : i ∈ chooseSteps x is) :
    i ∈ is := by
  obtain heq | ⟨k, p, rfl, ⟨-, heq⟩ | ⟨-, heq⟩⟩ := chooseSteps_cases x is <;> rw [heq] at h
  · exact h
  · exact List.mem_cons.2 (.inl (List.mem_singleton.1 h))
  · exact List.mem_cons_of_mem k h

/-- Only steps have a row in the table of R72, and each stands in `stepRows`. -/
theorem mem_stepRows_of_enables {sel : BitVec 7} {i : Instr} (h : enables sel i = true) : i ∈ stepRows := by
  cases i
  case reset | idle | start | ksLoad | ksRound | ipLoad | join | round | final => decide
  all_goals exact absurd h Bool.false_ne_true

theorem mem_enabledSet_iff {s : State} {is : List Instr} (h : enabledSet s = .enabled is) (i : Instr) :
    i ∈ is ↔ enables s.sel i = true := by
  have hmem : i ∈ stepRows.filter (enables s.sel) ↔ enables s.sel i = true := by
    rw [List.mem_filter]
    exact ⟨And.right, fun hi => ⟨mem_stepRows_of_enables hi, hi⟩⟩
  unfold enabledSet decode at h
  split at h
  · cases h
  · split at h
    · cases h
    · cases h
      exact hmem

theorem agent_ne_none_of_mem_enabledSet {s : State} {is : List Instr} {i : Instr}
    (h : enabledSet s = .enabled is) (hi : i ∈ is) : i.agent ≠ none := by
  have hrow : ∀ j ∈ stepRows, j.agent ≠ none := by decide
  exact hrow i (mem_stepRows_of_enables ((mem_enabledSet_iff h i).1 hi))

theorem stepsTaken_of_enabledSet {s : State} {is : List Instr} (h : enabledSet s = .enabled is) :
    stepsTaken s = chooseSteps s.choice is := by
  simp [stepsTaken, h]

/-! ### The steps taken -/

/-- The lists of steps taken at an edge, each with the control states it is taken in (R72, R73, R211). -/
inductive EdgeSteps (s : State) : List Instr → Prop
  | reset (hrst : s.ports.rst = true) : EdgeSteps s [.reset]
  | idle (hrst : s.ports.rst = false) (hph : s.ph = .idle) (hst : s.ports.start = false) : EdgeSteps s [.idle]
  | start (hrst : s.ports.rst = false) (hph : s.ph = .idle) (hst : s.ports.start = true) : EdgeSteps s [.start]
  | ksLoad (hrst : s.ports.rst = false) (hph : s.ph = .prep) (hdone : s.done = false)
      (hld : s.ksLd = false) (hkd : s.ksDone = false) : EdgeSteps s [.ksLoad]
  | ksRound (hrst : s.ports.rst = false) (hph : s.ph = .prep) (hdone : s.done = false)
      (hld : s.ksLd = true) (hkd : s.ksDone = false) : EdgeSteps s [.ksRound]
  | ipLoad (hrst : s.ports.rst = false) (hph : s.ph = .prep) (hdone : s.done = false)
      (hip : s.ipDone = false) : EdgeSteps s [.ipLoad]
  | ksLoad_ipLoad (hrst : s.ports.rst = false) (hph : s.ph = .prep) (hdone : s.done = false)
      (hld : s.ksLd = false) (hkd : s.ksDone = false) (hip : s.ipDone = false) : EdgeSteps s [.ksLoad, .ipLoad]
  | ksRound_ipLoad (hrst : s.ports.rst = false) (hph : s.ph = .prep) (hdone : s.done = false)
      (hld : s.ksLd = true) (hkd : s.ksDone = false) (hip : s.ipDone = false) : EdgeSteps s [.ksRound, .ipLoad]
  | join (hrst : s.ports.rst = false) (hph : s.ph = .prep) (hdone : s.done = false)
      (hld : s.ksLd = true) (hkd : s.ksDone = true) (hip : s.ipDone = true) : EdgeSteps s [.join]
  | round (hrst : s.ports.rst = false) (hph : s.ph = .rounds) (hdone : s.done = false)
      (hld : s.ksLd = true) (hkd : s.ksDone = true) (hip : s.ipDone = true) : EdgeSteps s [.round]
  | final (hrst : s.ports.rst = false) (hph : s.ph = .final) (hdone : s.done = false)
      (hld : s.ksLd = true) (hkd : s.ksDone = true) (hip : s.ipDone = true) : EdgeSteps s [.final]

/-- The steps taken are among those listed, under the premises listed. -/
theorem edgeSteps_stepsTaken {s : State} {is : List Instr} (h : enabledSet s = .enabled is) :
    EdgeSteps s (stepsTaken s) := by
  obtain ⟨hres, his⟩ := (enabledSet_eq_enabled_iff s is).1 h
  rw [stepsTaken_of_enabledSet h, his, State.enabledSteps]
  cases hrst : s.ports.rst with
  | true => exact .reset hrst
  | false =>
  -- R74 leaves `IDLE`, `PREP` with `KS_DONE` only after `KS_LD`, and `ROUNDS` and `FINAL` with all three flags
  obtain h | hph | ⟨hdone, ⟨hph, hkl⟩ | ⟨hph | hph, hld, hkd, hip⟩⟩ := (State.reserved_eq_false_iff s).1 hres
  · simp [hrst] at h
  · rw [hph]
    cases hst : s.ports.start
    · exact .idle hrst hph hst
    · exact .start hrst hph hst
  · rw [hph]
    cases hld : s.ksLd <;> cases hkd : s.ksDone <;> cases hip : s.ipDone
    · cases s.choice
      · exact .ksLoad hrst hph hdone hld hkd
      · exact .ipLoad hrst hph hdone hip
      · exact .ksLoad_ipLoad hrst hph hdone hld hkd hip
    · exact .ksLoad hrst hph hdone hld hkd
    · exact absurd (hkl hkd) (by simp [hld])
    · exact absurd (hkl hkd) (by simp [hld])
    · cases s.choice
      · exact .ksRound hrst hph hdone hld hkd
      · exact .ipLoad hrst hph hdone hip
      · exact .ksRound_ipLoad hrst hph hdone hld hkd hip
    · exact .ksRound hrst hph hdone hld hkd
    · exact .ipLoad hrst hph hdone hip
    · exact .join hrst hph hdone hld hkd hip
  · rw [hph]
    exact .round hrst hph hdone hld hkd hip
  · rw [hph]
    exact .final hrst hph hdone hld hkd hip

/-- What a clock edge can do: which steps it takes, and that it leaves their effects, at the next edge. -/
theorem step_cases {s t : State} (h : step s = .next t) :
    EdgeSteps s (stepsTaken s) ∧ t = (takeSteps (stepsTaken s) s).endEdge s.enabledSteps := by
  obtain ⟨is, u, hen, hrun, rfl⟩ := (clockEdge_next_iff s t).1 h
  refine ⟨edgeSteps_stepsTaken hen, ?_⟩
  have hagent : ∀ i ∈ chooseSteps s.choice is, i.agent ≠ none := fun i hi =>
    agent_ne_none_of_mem_enabledSet hen (mem_of_mem_chooseSteps hi)
  rw [stepsTaken_of_enabledSet hen, ← eq_takeSteps_of_runSteps hagent hrun,
    ((enabledSet_eq_enabled_iff s is).1 hen).2]

end Sys2Proof.Machine
end

section
/-! Proofs about the registers of the sequencer and the output ports (spec/10_state.md rules R27 to R29, R33). -/

namespace Sys2Proof.Machine

/-! ### The output ports -/

theorem State.busy_eq_true_iff (s : State) : s.busy = true ↔ s.ph ≠ .idle := by
  simp [State.busy]

/-- `START` and `RESET` clear `DONE`, the other steps of a run find it 0, and `FINAL`, which sets it, moves to `IDLE`
(R30, R37 item 4): whatever the state before the edge. -/
theorem done_eq_false_of_step {s t : State} (h : step s = .next t) (hph : t.ph ≠ .idle) : t.done = false := by
  obtain ⟨hes, rfl⟩ := step_cases h
  generalize stepsTaken s = is at hes hph ⊢
  cases hes
  case reset | start => rfl
  case idle hidle _ => exact absurd hidle hph
  case final => exact absurd rfl hph
  all_goals assumption

theorem done_eq_false_of_reachable {s : State} (hs : Reachable s) (hph : s.ph ≠ .idle) : s.done = false := by
  cases hs with
  | reset _ h => exact done_eq_false_of_step h hph
  | edge _ h => exact done_eq_false_of_step h hph

/-- Settles O47: a reachable state comes from a clock edge, and no edge leaves `DONE` set outside `IDLE`. -/
theorem outputPorts : Obligations.OutputPorts := by
  unfold Obligations.OutputPorts
  refine ⟨fun s => ⟨s.busy_eq_true_iff, rfl, fun hd => if_pos hd, fun hd => ?_⟩, ?_⟩
  · simp [State.blockOut, hd]
  · rintro s hs ⟨hbusy, hdone⟩
    have hd : s.done = false := done_eq_false_of_reachable hs (s.busy_eq_true_iff.1 hbusy)
    exact Bool.false_ne_true (hd.symm.trans hdone)

/-! ### The phase register -/

theorem mem_of_mem_prepSteps {ksLd ksDone ipDone : Bool} {i : Instr} (h : i ∈ prepSteps ksLd ksDone ipDone) :
    i ∈ [Instr.ksLoad, .ksRound, .ipLoad, .join] := by
  have hsub : ∀ ld kd ip, prepSteps ld kd ip ⊆ [Instr.ksLoad, .ksRound, .ipLoad, .join] := by decide
  exact hsub _ _ _ h

/-- The phase that follows: `RESET`, `START`, `JOIN`, the last `ROUND` and `FINAL` move it (R27). -/
def State.nextPh (s : State) : Phase :=
  if s.ports.rst then .idle
  else match s.ph with
    | .idle => if s.ports.start then .prep else .idle
    | .prep => if s.ksLd && s.ksDone && s.ipDone then .rounds else .prep
    | .rounds => if s.ri = 15 then .final else .rounds
    | .final => .idle

theorem ph_eq_nextPh_of_step {s t : State} (h : step s = .next t) : t.ph = s.nextPh := by
  obtain ⟨hes, rfl⟩ := step_cases h
  generalize stepsTaken s = is at hes ⊢
  cases hes <;> simp [State.nextPh, *]

/-- Settles O48: the enabled set by phase, and the next phase by the steps an edge can take. -/
theorem phaseMovesInOrder : Obligations.PhaseMovesInOrder := by
  unfold Obligations.PhaseMovesInOrder
  refine ⟨⟨rfl, rfl, rfl, rfl⟩, ?_, ?_⟩
  · intro s is hrst hen
    obtain ⟨-, rfl⟩ := (enabledSet_eq_enabled_iff s is).1 hen
    have hsteps : s.enabledSteps = phaseSteps s.ph s.ksLd s.ksDone s.ipDone s.ports.start := by
      simp [State.enabledSteps, hrst]
    rw [hsteps]
    refine ⟨?_, ?_, ?_, ?_⟩ <;> intro hph <;> rw [hph]
    · rfl
    · exact fun i hi => mem_of_mem_prepSteps hi
    · rfl
    · rfl
  · intro s t h
    rw [ph_eq_nextPh_of_step h, State.nextPh]
    refine ⟨fun hrst => if_pos hrst, fun hrst => ?_⟩
    rw [hrst, if_neg Bool.false_ne_true]
    refine ⟨?_, ?_, ?_, ?_⟩ <;> intro hph <;> rw [hph]

/-! ### The two counters -/

@[simp] theorem countUp_fifteen : countUp 15#4 = 15#4 := rfl

theorem toNat_countUp_of_ne {x : BitVec 4} (h : x ≠ 15) : (countUp x).toNat = x.toNat + 1 := by
  have hx : x.toNat ≠ 15 := fun hn => h (BitVec.eq_of_toNat_eq hn)
  rw [toNat_countUp, if_neg hx]

/-- Settles O49: only the pass and the round count, and each stops at 15. -/
theorem countersNeverWrap : Obligations.CountersNeverWrap := by
  intro s t h
  obtain ⟨hes, rfl⟩ := step_cases h
  generalize stepsTaken s = is at hes ⊢
  cases hes
  case ksRound | ksRound_ipLoad | round => simp +contextual [toNat_countUp_of_ne]
  all_goals simp

end Sys2Proof.Machine
end

section
/-! Proofs about the encoding of steps and of text (spec/30_encoding.md rules R71, R72, R74, R76). -/

namespace Sys2Proof.Machine

/-! ### The select word and the step table (R71, R72) -/

@[simp] theorem selStart_mkSel (rst : Bool) (ph : BitVec 2) (ksLd ksDone ipDone start : Bool) :
    selStart (mkSel rst ph ksLd ksDone ipDone start) = start := by
  revert rst ph ksLd ksDone ipDone start; decide

theorem getLsbD_selPh (sel : BitVec 7) {i : Nat} (hi : i < 2) : (selPh sel).getLsbD i = sel.getLsbD (4 + i) := by
  simp [selPh, hi]

theorem Phase.getLsbD_code_one (ph : Phase) : ph.code.getLsbD 1 = (ph == .rounds || ph == .final) := by
  cases ph <;> rfl

theorem Phase.getLsbD_code_zero (ph : Phase) : ph.code.getLsbD 0 = (ph == .prep || ph == .final) := by
  cases ph <;> rfl

theorem State.selPh_sel (s : State) : selPh s.sel = s.ph.code := selPh_mkSel ..

theorem enables_iff_of_selPattern {i : Instr} {mask pat : BitVec 7} (h : i.selPattern = some (mask, pat))
    (sel : BitVec 7) : enables sel i = true ↔ sel &&& mask = pat := by
  simp [enables, h]

/-- Settles O1: the fields of `SEL` read back bit by bit, and each row of the table by its own mask and match. -/
theorem selectWordAndStepTable : Obligations.SelectWordAndStepTable := by
  unfold Obligations.SelectWordAndStepTable
  refine ⟨fun s => ?_, fun s ki ri => rfl, fun sel => ?_, fun i sel h => mem_stepRows_of_enables h, rfl⟩
  · have hph1 : s.sel.getLsbD 5 = s.ph.code.getLsbD 1 := by
      rw [← s.selPh_sel, getLsbD_selPh _ (by decide)]
    have hph0 : s.sel.getLsbD 4 = s.ph.code.getLsbD 0 := by
      rw [← s.selPh_sel, getLsbD_selPh _ (by decide)]
    exact ⟨selRst_mkSel .., hph1.trans s.ph.getLsbD_code_one, hph0.trans s.ph.getLsbD_code_zero,
      selKsLd_mkSel .., selKsDone_mkSel .., selIpDone_mkSel .., selStart_mkSel ..⟩
  · refine ⟨?_, ?_, ?_, ?_, ?_, ?_, ?_, ?_, ?_⟩ <;> exact enables_iff_of_selPattern rfl sel

/-! ### Reserved control states (R74) -/

/-- R74's three kinds of reserved state, as the rule lists them. -/
theorem State.reserved_iff (s : State) :
    s.reserved = true ↔
      s.ports.rst = false ∧
        ((s.ph = .prep ∧ s.ksLd = false ∧ s.ksDone = true) ∨
         ((s.ph = .rounds ∨ s.ph = .final) ∧ (s.ksLd = false ∨ s.ksDone = false ∨ s.ipDone = false)) ∨
         (s.ph ≠ .idle ∧ s.done = true)) := by
  rw [← Bool.not_eq_false, s.reserved_eq_false_iff]
  cases s.ph <;> grind

theorem step_of_reserved {s : State} (h : s.reserved = true) : step s = .fault .reservedControlState := by
  simp [clockEdge, enabledSet, h]

theorem exec_of_reserved {s : State} (h : s.reserved = true) {i : Instr} (hi : i.agent ≠ none) :
    exec i s = .fault .reservedControlState := by
  rw [exec_eq_performStep hi, performStep, if_pos h]

/-- With `rst = 1` the edge takes `RESET`, in every state (R74, R200). -/
theorem step_of_rst {s : State} (hrst : s.ports.rst = true) :
    step s = .next ((resetEffect s).endEdge [.reset]) := by
  have hres : s.reserved = false := (s.reserved_eq_false_iff).2 (.inl hrst)
  have hen : enabledSet s = .enabled [.reset] :=
    (enabledSet_eq_enabled_iff s _).2 ⟨hres, by simp [State.enabledSteps, hrst]⟩
  have hexec : exec .reset s = .next (resetEffect s) :=
    (exec_next_iff (by decide) s _).2 ⟨hres, (mem_enabledSet_iff hen .reset).1 (by simp), rfl⟩
  exact (clockEdge_next_iff s _).2 ⟨[.reset], _, hen, (runSteps_cons_next_iff ..).2 ⟨_, hexec, rfl⟩, rfl⟩

theorem reserved_eq_false_of_step {s t : State} (h : step s = .next t) : s.reserved = false := by
  obtain ⟨is, -, hen, -⟩ := (clockEdge_next_iff s t).1 h
  exact ((enabledSet_eq_enabled_iff s is).1 hen).1

/-- No edge leads to a reserved state, whatever the ports carry next: the phase it leads to has the flags R74 asks
for, set by the step or found by it. -/
theorem reserved_eq_false_after_step {s t : State} (h : step s = .next t) : t.reserved = false := by
  have hres := (s.reserved_eq_false_iff).1 (reserved_eq_false_of_step h)
  obtain ⟨hes, rfl⟩ := step_cases h
  generalize stepsTaken s = is at hes ⊢
  refine (State.reserved_eq_false_iff _).2 (.inr ?_)
  cases hes
  case reset | start | final => simp
  case ipLoad =>
    have hflags : s.ksDone = true → s.ksLd = true := by simpa [*] using hres
    simpa [*] using hflags
  case round => by_cases hri : s.ri = 15#4 <;> simp [*]
  all_goals simp [*]

theorem reserved_eq_false_of_reachable {s : State} (hs : Reachable s) : s.reserved = false := by
  cases hs with
  | reset _ h => exact reserved_eq_false_after_step h
  | edge _ h => exact reserved_eq_false_after_step h

/-- Settles O3: R74's list read off the select word; a reserved state answers nothing but the fault, `rst` selects
`RESET` in every state, and a reachable state comes from a clock edge, which never leads to a reserved one. -/
theorem reservedStatesFaultAndResetRecovers : Obligations.ReservedStatesFaultAndResetRecovers := by
  unfold Obligations.ReservedStatesFaultAndResetRecovers
  refine ⟨State.reserved_iff, fun s h => ⟨step_of_reserved h, fun i hi => exec_of_reserved h hi⟩, fun s hrst => ?_,
    fun s hs => reserved_eq_false_of_reachable hs⟩
  exact ⟨_, step_of_rst hrst, rfl, rfl, rfl, rfl, rfl, rfl, rfl⟩

end Sys2Proof.Machine
end

section
/-! Proofs about text read as vectors: each character supplies `w` positions (spec/30_encoding.md rules R76, R77). -/

namespace Sys2Proof.Machine

/-! ### A list of bits as an integer -/

theorem toNat_ofBoolListBE_cons (b : Bool) (bs : List Bool) :
    (BitVec.ofBoolListBE (b :: bs)).toNat = b.toNat * 2 ^ bs.length + (BitVec.ofBoolListBE bs).toNat := by
  rw [BitVec.ofBoolListBE, BitVec.toNat_cons', Nat.shiftLeft_eq]

theorem toNat_ofBoolListBE_append (as bs : List Bool) :
    (BitVec.ofBoolListBE (as ++ bs)).toNat =
      2 ^ bs.length * (BitVec.ofBoolListBE as).toNat + (BitVec.ofBoolListBE bs).toNat := by
  induction as with
  | nil => simp [BitVec.ofBoolListBE]
  | cons a as ih =>
    rw [List.cons_append, toNat_ofBoolListBE_cons, toNat_ofBoolListBE_cons, ih, List.length_append, pow_add]
    ring

theorem toNat_fromPositions {m : Nat} {bs : List Bool} (h : bs.length = m) :
    (fromPositions bs : BitVec m).toNat = (BitVec.ofBoolListBE bs).toNat := by
  subst h
  simp [fromPositions]

/-! ### Text: one group of `w` positions for each character -/

section Characters
variable {α : Type} {w : Nat} (f : α → BitVec w)

theorem length_flatMap_positions (cs : List α) : (cs.flatMap fun c => positions (f c)).length = w * cs.length := by
  simp [List.length_flatMap, Nat.mul_comm]

/-- Character `k` supplies positions `w*k .. w*k + w-1`. -/
theorem getD_flatMap_positions (cs : List α) {k j : Nat} (hk : k < cs.length) (hj : j < w) :
    (cs.flatMap fun c => positions (f c)).getD (w * k + j) false = (f cs[k]).getMsbD j := by
  induction cs generalizing k with
  | nil => exact absurd hk (Nat.not_lt_zero k)
  | cons c cs ih =>
    rw [List.flatMap_cons]
    cases k with
    | zero =>
      rw [Nat.mul_zero, Nat.zero_add, List.getD_append _ _ _ _ (by simpa using hj), getD_positions,
        List.getElem_cons_zero]
    | succ k =>
      rw [List.getD_append_right _ _ _ _ (by simp [Nat.mul_succ]; omega), length_positions,
        show w * (k + 1) + j - w = w * k + j by rw [Nat.mul_succ]; omega]
      exact ih (Nat.lt_of_succ_lt_succ hk)

/-- The vector read as an integer: the characters' values are its digits in base `2^w`. -/
theorem toNat_fromPositions_flatMap (cs : List α) :
    (fromPositions (cs.flatMap fun c => positions (f c)) : BitVec (w * cs.length)).toNat =
      cs.foldl (fun x c => 2 ^ w * x + (f c).toNat) 0 := by
  rw [toNat_fromPositions (length_flatMap_positions f cs)]
  induction cs using List.reverseRecOn with
  | nil => rfl
  | append_singleton cs c ih =>
    have hlast : (BitVec.ofBoolListBE (positions (f c))).toNat = (f c).toNat := by
      rw [← toNat_fromPositions (length_positions (f c)), fromPositions_positions]
    rw [List.flatMap_append, List.flatMap_singleton, toNat_ofBoolListBE_append, ih, hlast, length_positions,
      List.foldl_append]
    rfl

end Characters

/-! ### `HEXBITS` (R76) -/

theorem hexValue_lt_sixteen {c : Char} (h : isHexDigit c = true) : hexValue c < 16 := by
  simp only [isHexDigit, Bool.or_eq_true, Bool.and_eq_true, decide_eq_true_eq] at h
  unfold hexValue
  split_ifs <;> omega

theorem getMsbD_hexBits (cs : List Char) {k j : Nat} (hk : k < cs.length) (hj : j < 4) :
    (hexBits cs).getMsbD (4 * k + j) = (BitVec.ofNat 4 (hexValue cs[k])).getMsbD j := by
  rw [hexBits, getMsbD_fromPositions _ (length_flatMap_positions _ cs), getD_flatMap_positions _ cs hk hj]

theorem toNat_hexBits {cs : List Char} (h : cs.all isHexDigit = true) :
    (hexBits cs).toNat = cs.foldl (fun x c => 16 * x + hexValue c) 0 := by
  rw [hexBits, toNat_fromPositions_flatMap]
  refine List.foldl_ext _ _ _ fun x c hc => ?_
  have hlt : hexValue c < 2 ^ 4 := hexValue_lt_sixteen (List.all_eq_true.1 h c hc)
  rw [BitVec.toNat_ofNat, Nat.mod_eq_of_lt hlt]
  rfl

/-- Settles O14: digit `k` is the `k`-th group of four positions, and the groups are the digits in base 16. -/
theorem hexBitsReadsDigits : Obligations.HexBitsReadsDigits := by
  unfold Obligations.HexBitsReadsDigits
  refine ⟨fun cs s h => ⟨hexBits cs, ?_, fun k hk j hj => getMsbD_hexBits cs hk hj, toNat_hexBits h⟩, ?_, ?_, ?_⟩
  · exact (performFn_next_iff _ _ _ s _).2 ⟨h, rfl⟩
  all_goals decide

end Sys2Proof.Machine
end

section
/-! Proofs about the BitVector Utilities (spec/40_bitvector.md rules R90 to R96): what each function holds at each
position, then the rules themselves. -/

namespace Sys2Proof.Machine

/-! ### `PERMUTE` (R90, R96) -/

theorem tableInRange_eq_true_iff (n : Nat) (t : List Nat) :
    tableInRange n t = true ↔ ∀ e ∈ t, 1 ≤ e ∧ e ≤ n := by
  simp [tableInRange]

theorem getMsbD_permute {n m i : Nat} (v : BitVec n) {t : List Nat} (ht : t.length = m) (hi : i < t.length) :
    (permute v t : BitVec m).getMsbD i = v.getMsbD (t[i] - 1) := by
  have hlen : (t.map fun e => v.getMsbD (e - 1)).length = m := by rw [List.length_map, ht]
  rw [permute, getMsbD_fromPositions _ hlen, List.getD_eq_getElem _ _ (by rwa [List.length_map]), List.getElem_map]

/-- Settles O8: each output position is read off the list the result is built from. -/
theorem permuteCopiesSourcePositions : Obligations.PermuteCopiesSourcePositions := by
  unfold Obligations.PermuteCopiesSourcePositions
  refine ⟨fun n v t s ht => ⟨permute v t, ?_, fun i hi => getMsbD_permute v rfl hi⟩, by decide⟩
  exact (performFn_next_iff _ _ _ s _).2 ⟨(tableInRange_eq_true_iff n t).2 ht, rfl⟩

/-- A table that keeps the length: `n` entries, each in `1 .. n`. -/
structure SquareTable (n : Nat) (t : List Nat) : Prop where
  length_eq : t.length = n
  mem_range : ∀ e ∈ t, 1 ≤ e ∧ e ≤ n

namespace SquareTable
variable {n : Nat} {t u : List Nat}

theorem getD_range (ht : SquareTable n t) (i : Fin n) : 1 ≤ t.getD i 0 ∧ t.getD i 0 ≤ n := by
  have hi : i < t.length := ht.length_eq ▸ i.isLt
  rw [List.getD_eq_getElem _ _ hi]
  exact ht.mem_range _ (List.getElem_mem hi)

/-- The position that output position `i` is a copy of. -/
def source (ht : SquareTable n t) (i : Fin n) : Fin n :=
  ⟨t.getD i 0 - 1, by have := ht.getD_range i; omega⟩

theorem getMsbD_permute_source (ht : SquareTable n t) (v : BitVec n) (i : Fin n) :
    (permute v t : BitVec n).getMsbD i = v.getMsbD (ht.source i) := by
  have hi : i < t.length := ht.length_eq ▸ i.isLt
  rw [getMsbD_permute v ht.length_eq hi, ← List.getD_eq_getElem t 0 hi]
  rfl

/-- R96's condition on an inverse table, `U[T[i]-1] = i+1`, read on source positions. -/
theorem leftInverse_source (ht : SquareTable n t) (hu : SquareTable n u)
    (h : ∀ i < n, u.getD (t.getD i 0 - 1) 0 = i + 1) : Function.LeftInverse hu.source ht.source := fun i =>
  Fin.ext (by simp only [source, h i i.isLt, Nat.add_sub_cancel])

theorem permute_permute (ht : SquareTable n t) (hu : SquareTable n u)
    (h : Function.LeftInverse ht.source hu.source) (v : BitVec n) :
    (permute (permute v t : BitVec n) u : BitVec n) = v := by
  refine BitVec.eq_of_getMsbD_eq fun i hi => ?_
  calc (permute (permute v t : BitVec n) u : BitVec n).getMsbD i
      = (permute v t : BitVec n).getMsbD (hu.source ⟨i, hi⟩) := hu.getMsbD_permute_source _ ⟨i, hi⟩
    _ = v.getMsbD (ht.source (hu.source ⟨i, hi⟩)) := ht.getMsbD_permute_source _ _
    _ = v.getMsbD i := by rw [h]

end SquareTable

/-- Settles O17: an output bit is a copy of the bit its entry names; on the finitely many positions an inverse from the
one side is an inverse from the other; the core's own tables are checked entry by entry. -/
theorem permuteLaws : Obligations.PermuteLaws := by
  unfold Obligations.PermuteLaws
  refine ⟨fun n v t ht i hi => ⟨t[i] - 1, ?_, getMsbD_permute v rfl hi⟩,
    fun n v t u htl hul htr hur h => ?_, ?_, ?_, ?_⟩
  · have := ht _ (List.getElem_mem hi)
    omega
  · have ht : SquareTable n t := ⟨htl, htr⟩
    have hu : SquareTable n u := ⟨hul, hur⟩
    have hleft : Function.LeftInverse hu.source ht.source := ht.leftInverse_source hu h
    have hright : Function.LeftInverse ht.source hu.source := hleft.rightInverse_of_card_le le_rfl
    exact ⟨ht.permute_permute hu hright v, hu.permute_permute ht hleft v⟩
  all_goals decide

/-! ### `ROTL` (R91) -/

theorem getMsbD_rotl {n i : Nat} (v : BitVec n) (k : Nat) (hi : i < n) :
    (rotl v k).getMsbD i = v.getMsbD ((i + k) % n) := by
  rw [rotl, BitVec.getMsbD_rotateLeft, decide_eq_true hi, Bool.true_and, Nat.add_comm]

theorem rotl_zero {n : Nat} (v : BitVec n) : rotl v 0 = v :=
  BitVec.eq_of_getMsbD_eq fun i hi => by rw [getMsbD_rotl v 0 hi, Nat.add_zero, Nat.mod_eq_of_lt hi]

theorem rotl_width {n : Nat} (v : BitVec n) : rotl v n = v :=
  BitVec.eq_of_getMsbD_eq fun i hi => by rw [getMsbD_rotl v n hi, Nat.add_mod_right, Nat.mod_eq_of_lt hi]

theorem rotl_rotl {n : Nat} (v : BitVec n) (a b : Nat) : rotl (rotl v a) b = rotl v (a + b) := by
  refine BitVec.eq_of_getMsbD_eq fun i hi => ?_
  have hmod : (i + b) % n < n := Nat.mod_lt _ (Nat.zero_lt_of_lt hi)
  rw [getMsbD_rotl _ b hi, getMsbD_rotl v a hmod, getMsbD_rotl v _ hi, Nat.mod_add_mod, Nat.add_assoc, Nat.add_comm b a]

/-- Settles O9: the laws follow from the position formula by arithmetic modulo the length. -/
theorem rotlMovesPositionsLeft : Obligations.RotlMovesPositionsLeft := by
  unfold Obligations.RotlMovesPositionsLeft
  refine ⟨fun n v k s hn => ⟨rotl v k, ?_, fun i hi => getMsbD_rotl v k hi⟩,
    fun n v => ⟨rotl_zero v, rotl_width v⟩, fun n v a b => rotl_rotl v a b, by decide⟩
  exact (performFn_next_iff _ _ _ s _).2 ⟨decide_eq_true hn, rfl⟩

/-! ### `XOR` (R92) -/

theorem getMsbD_xorBits {n : Nat} (a b : BitVec n) (i : Nat) :
    (xorBits a b).getMsbD i = (a.getMsbD i ^^ b.getMsbD i) :=
  BitVec.getMsbD_xor

theorem xorBits_xorBits_self {n : Nat} (a b : BitVec n) : xorBits (xorBits a b) b = a := by
  simp [xorBits]

/-- Settles O10: `XOR` is the library's bitwise exclusive or, which has R92's laws. -/
theorem xorIsBitwise : Obligations.XorIsBitwise := by
  unfold Obligations.XorIsBitwise
  refine ⟨fun n a b s => ⟨xorBits a b, rfl, fun i _ => getMsbD_xorBits a b i⟩, fun n a b c => ?_, by decide⟩
  exact ⟨BitVec.xor_self, BitVec.xor_zero, BitVec.xor_comm a b, BitVec.xor_assoc a b c, xorBits_xorBits_self a b⟩

/-! ### Consecutive pieces of a vector -/

/-- `sub(v, a, m)` as a piece of the list of positions (R12). -/
theorem positions_sub {n : Nat} (v : BitVec n) {a m : Nat} (h : a + m ≤ n) :
    positions (sub v a m) = ((positions v).drop a).take m := by
  refine List.ext_getElem (by simp; omega) fun i hi _ => ?_
  have him : i < m := by simpa using hi
  simp [positions, getMsbD_sub v a m h i him]

/-- The first `k` pieces of `n` elements each make up the first `k*n` elements of a list. -/
theorem flatMap_range_take_drop {α : Type} (l : List α) (n k : Nat) :
    ((List.range k).flatMap fun j => (l.drop (j * n)).take n) = l.take (k * n) := by
  induction k with
  | zero => simp
  | succ k ih => rw [List.range_succ, List.flatMap_append, ih, List.flatMap_singleton, Nat.succ_mul, List.take_add]

/-! ### `CHUNK` (R93) -/

/-- `ceil(m/n)` is the least number of pieces of `n` bits that holds `m` bits. -/
theorem pieceCount_le_iff {m n c : Nat} (hn : 1 ≤ n) : (m + n - 1) / n ≤ c ↔ m ≤ c * n := by
  rw [← Nat.ceilDiv_eq_add_pred_div, ceilDiv_le_iff_le_mul hn, Nat.mul_comm]

/-- Piece `j` of R93. -/
def piece {m : Nat} (v : BitVec m) (n j : Nat) : Bits :=
  ⟨min n (m - j * n), sub v (j * n) (min n (m - j * n))⟩

theorem chunk_eq_map_piece {m : Nat} (v : BitVec m) (n : Nat) :
    chunk v n = (List.range ((m + n - 1) / n)).map (piece v n) := rfl

theorem length_chunk {m : Nat} (v : BitVec m) (n : Nat) : (chunk v n).length = (m + n - 1) / n := by
  simp [chunk_eq_map_piece]

theorem getElem_chunk {m n j : Nat} (v : BitVec m) (hj : j < (chunk v n).length) : (chunk v n)[j] = piece v n j := by
  simp [chunk_eq_map_piece]

section Pieces
variable {m n j : Nat} (hn : 1 ≤ n) (hj : j < (m + n - 1) / n)
include hn hj

/-- A piece begins inside the vector. -/
theorem mul_lt_of_lt_pieceCount : j * n < m :=
  Nat.lt_of_not_le fun h => Nat.not_le_of_lt hj ((pieceCount_le_iff hn).2 h)

theorem piece_le_width : j * n + min n (m - j * n) ≤ m := by
  have := mul_lt_of_lt_pieceCount hn hj
  omega

/-- The last piece is the rest of the vector, so the minimum can be left out of `take`. -/
theorem positions_piece (v : BitVec m) : positions (piece v n j).val = ((positions v).drop (j * n)).take n := by
  rw [piece, positions_sub v (piece_le_width hn hj), List.take_eq_take_iff, List.length_drop, length_positions]
  omega

end Pieces

theorem flatMap_positions_chunk {m n : Nat} (v : BitVec m) (hn : 1 ≤ n) :
    ((chunk v n).flatMap fun b => positions b.val) = positions v := by
  have hcover : m ≤ (m + n - 1) / n * n := (pieceCount_le_iff hn).1 le_rfl
  calc ((chunk v n).flatMap fun b => positions b.val)
      = (List.range ((m + n - 1) / n)).flatMap fun j => positions (piece v n j).val := by
        rw [chunk_eq_map_piece, List.flatMap_map]
    _ = (List.range ((m + n - 1) / n)).flatMap fun j => ((positions v).drop (j * n)).take n :=
        List.flatMap_congr fun j hj => positions_piece hn (List.mem_range.1 hj) v
    _ = (positions v).take ((m + n - 1) / n * n) := flatMap_range_take_drop _ _ _
    _ = positions v := List.take_of_length_le (by rwa [length_positions])

/-- Settles O11: piece `j` is a `sub` that begins inside the vector, and the pieces cover it without a gap. -/
theorem chunkGivesConsecutivePieces : Obligations.ChunkGivesConsecutivePieces := by
  unfold Obligations.ChunkGivesConsecutivePieces
  refine ⟨fun m v n s hn => ⟨chunk v n, ?_, length_chunk v n, fun j hj => ?_,
    flatMap_positions_chunk v hn⟩, by decide⟩
  · exact (performFn_next_iff _ _ _ s _).2 ⟨decide_eq_true hn, rfl⟩
  · have hfit : j * n + min n (m - j * n) ≤ m := piece_le_width hn (length_chunk v n ▸ hj)
    rw [getElem_chunk v hj]
    exact ⟨rfl, fun i hi => getMsbD_sub v _ _ hfit i hi⟩

/-! ### `SPLIT` and `CONCAT` (R94, R95) -/

theorem positions_split {h : Nat} (v : BitVec (2 * h)) :
    positions (split h v).1 ++ positions (split h v).2 = positions v := by
  rw [split, positions_sub v (by omega), positions_sub v (by omega), List.drop_zero, ← List.take_add,
    List.take_of_length_le (by rw [length_positions]; omega)]

/-- Settles O12: the two halves are `sub`s, and as lists of positions they are the first `h` and the rest. -/
theorem splitIsContiguous : Obligations.SplitIsContiguous := by
  unfold Obligations.SplitIsContiguous
  refine ⟨fun h v s => ⟨(split h v).1, (split h v).2, rfl, fun i hi => ⟨?_, ?_⟩, positions_split v⟩,
    by decide⟩
  · exact (getMsbD_sub v 0 h (by omega) i hi).trans (by rw [Nat.zero_add])
  · exact getMsbD_sub v h h (by omega) i hi

section Concat
variable {p q i : Nat} (a : BitVec p) (b : BitVec q)

theorem getMsbD_concat_left (hi : i < p) : (concat a b).getMsbD i = a.getMsbD i := by
  rw [concat, BitVec.getMsbD_append, if_neg (by omega)]

theorem getMsbD_concat_right : (concat a b).getMsbD (p + i) = b.getMsbD i := by
  rw [concat, BitVec.getMsbD_append, if_pos (by omega), Nat.add_sub_cancel_left]

end Concat

theorem split_concat {p : Nat} (a b : BitVec p) : split p (concat a b) = (a, b) := by
  refine Prod.ext (BitVec.eq_of_getMsbD_eq fun i hi => ?_) (BitVec.eq_of_getMsbD_eq fun i hi => ?_)
  · rw [split, getMsbD_sub _ 0 p (by omega) i hi, Nat.zero_add, getMsbD_concat_left a b hi]
  · rw [split, getMsbD_sub _ p p (by omega) i hi, getMsbD_concat_right a b]

/-- Settles O13: the positions of the library's append; the example and the two orders of two bits by evaluation. -/
theorem concatAppendsPositions : Obligations.ConcatAppendsPositions := by
  unfold Obligations.ConcatAppendsPositions
  exact ⟨fun p q a b s => ⟨concat a b, rfl, fun i hi => getMsbD_concat_left a b hi,
    fun i _ => getMsbD_concat_right a b⟩, fun p a b => split_concat a b, by decide, by decide⟩

end Sys2Proof.Machine
end

section
/-! Proofs about the functions of the key schedule (spec/42_key_schedule.md rules R120 to R122): `KS_INIT` and
`KS_NEXT` by positions, and the passes of `DERIVE_ROUND_KEYS` by induction on their number. -/

namespace Sys2Proof.Machine

/-! ### Permutations by table, and contiguous halves -/

theorem getMsbD_permute_tableRead {n m i : Nat} (v : BitVec n) {t : List Nat} (ht : t.length = m) (hi : i < m) :
    (permute v t : BitVec m).getMsbD i = v.getMsbD (tableRead t i - 1) := by
  have hit : i < t.length := ht ▸ hi
  rw [getMsbD_permute v ht hit, tableRead, List.getD_eq_getElem _ _ hit]

/-- A permutation depends only on the positions its table names. -/
theorem permute_congr {n m : Nat} {v w : BitVec n} {t : List Nat}
    (h : ∀ e ∈ t, v.getMsbD (e - 1) = w.getMsbD (e - 1)) : (permute v t : BitVec m) = permute w t :=
  congrArg fromPositions (List.map_congr_left h)

section Split
variable {n h i : Nat} (v : BitVec n) (hn : h + h ≤ n) (hi : i < h)
include hn hi

theorem getMsbD_split_fst : (split h v).1.getMsbD i = v.getMsbD i := by
  rw [split, getMsbD_sub v 0 h (by omega) i hi, Nat.zero_add]

theorem getMsbD_split_snd : (split h v).2.getMsbD i = v.getMsbD (h + i) := by
  rw [split, getMsbD_sub v h h hn i hi]

end Split

/-! ### `KS_INIT` (R120) -/

theorem length_pc1 : Config.pc1.length = 56 := rfl

theorem getMsbD_ksInit_fst (key : Block) {i : Nat} (hi : i < 28) :
    (ksInit key).1.getMsbD i = key.getMsbD (tableRead Config.pc1 i - 1) := by
  rw [ksInit, getMsbD_split_fst _ (by decide) hi, getMsbD_permute_tableRead key length_pc1 (by omega)]

theorem getMsbD_ksInit_snd (key : Block) {i : Nat} (hi : i < 28) :
    (ksInit key).2.getMsbD i = key.getMsbD (tableRead Config.pc1 (28 + i) - 1) := by
  rw [ksInit, getMsbD_split_snd _ (by decide) hi, getMsbD_permute_tableRead key length_pc1 (by omega)]

/-- `PC1` names no parity position (R102). -/
theorem pc1_skips_parity : ∀ e ∈ Config.pc1, e - 1 < 64 ∧ (e - 1) % 8 ≠ 7 := by decide

theorem ksInit_congr {key key' : Block} (h : ∀ i < 64, i % 8 ≠ 7 → key.getMsbD i = key'.getMsbD i) :
    ksInit key = ksInit key' := by
  have hpc1 : ∀ e ∈ Config.pc1, key.getMsbD (e - 1) = key'.getMsbD (e - 1) := fun e he =>
    h _ (pc1_skips_parity e he).1 (pc1_skips_parity e he).2
  rw [ksInit, ksInit, permute_congr hpc1]

/-- The halves of the spec's example key `K*`. -/
theorem ksInit_exampleKey : ksInit 0x133457799BBCDFF1 = (0xF0CCAAF, 0x556678F) := by decide +kernel

/-- Settles O21: each half is read off `PC1` by position, and `PC1` skips the parity positions. -/
theorem ksInitSelectsHalves : Obligations.KsInitSelectsHalves := by
  unfold Obligations.KsInitSelectsHalves
  refine ⟨fun key s => ⟨(ksInit key).1, (ksInit key).2, rfl, rfl, fun i hi => ?_⟩,
    fun key key' h => ksInit_congr h, by decide +kernel, by decide +kernel, ksInit_exampleKey⟩
  exact ⟨getMsbD_ksInit_fst key hi, getMsbD_ksInit_snd key hi⟩

/-! ### `KS_NEXT` (R121) -/

theorem length_pc2 : Config.pc2.length = 48 := rfl

/-- The first 24 entries of `PC2` name positions of the first half (R103). -/
theorem pc2_left : ∀ j < 24, tableRead Config.pc2 j - 1 < 28 := by decide

/-- The last 24 entries of `PC2` name positions of the second half (R103). -/
theorem pc2_right : ∀ j < 24, 28 ≤ tableRead Config.pc2 (24 + j) - 1 := by decide

section KsNext
variable (c d : HalfKey) (i : Fin 16)

/-- The key is taken from the halves after they are rotated. -/
theorem ksNext_key : (ksNext c d i).2.2 = permute (concat (ksNext c d i).1 (ksNext c d i).2.1) Config.pc2 := rfl

theorem getMsbD_ksNext_key_left {j : Nat} (hj : j < 24) :
    (ksNext c d i).2.2.getMsbD j = (ksNext c d i).1.getMsbD (tableRead Config.pc2 j - 1) := by
  rw [ksNext_key, getMsbD_permute_tableRead _ length_pc2 (by omega), getMsbD_concat_left _ _ (pc2_left j hj)]

theorem getMsbD_ksNext_key_right {j : Nat} (hj : j < 24) :
    (ksNext c d i).2.2.getMsbD (24 + j) = (ksNext c d i).2.1.getMsbD (tableRead Config.pc2 (24 + j) - 1 - 28) := by
  rw [ksNext_key, getMsbD_permute_tableRead _ length_pc2 (by omega), ← Nat.add_sub_cancel' (pc2_right j hj),
    getMsbD_concat_right, Nat.add_sub_cancel_left]

end KsNext

/-- The first pass over the halves of `K*`. -/
theorem ksNext_exampleHalves :
    ksNext 0xF0CCAAF 0x556678F 0 = (0xE19955F, 0xAACCF1E, 0x1B02EFFC7072) := by decide +kernel

/-- Settles O22: both halves are rotated as rings of 28, and `PC2` takes each half of the key from its own half. -/
theorem ksNextRotatesThenSelects : Obligations.KsNextRotatesThenSelects := by
  unfold Obligations.KsNextRotatesThenSelects
  refine ⟨fun c d i s => ⟨(ksNext c d i).1, (ksNext c d i).2.1, (ksNext c d i).2.2, rfl, rfl, fun j hj => ?_,
    fun j hj => getMsbD_ksNext_key_left c d i hj, fun j hj => getMsbD_ksNext_key_right c d i hj⟩,
    ksNext_exampleHalves⟩
  exact ⟨getMsbD_rotl c _ hj, getMsbD_rotl d _ hj⟩

/-! ### `DERIVE_ROUND_KEYS` (R122) -/

theorem keyPasses_succ (key : Block) (i : Fin 16) :
    keyPasses key (i.val + 1) = keyPass (keyPasses key i.val) i := by
  rw [keyPasses, Fin.ofNat_val_eq_self]

/-- A key stays as its own pass wrote it: a later pass writes another entry. -/
theorem readRk_keyPasses (key : Block) (i : Fin 16) {n : Nat} (hi : i.val < n) (hn : n ≤ 16) :
    readRk (keyPasses key n).2.2 i = (ksNext (keyPasses key i.val).1 (keyPasses key i.val).2.1 i).2.2 := by
  induction n with
  | zero => exact absurd hi (Nat.not_lt_zero _)
  | succ n ih =>
    rw [keyPasses_succ key ⟨n, hn⟩, keyPass, readRk_writeRk]
    split_ifs with heq
    · rw [← heq]
    · have hne : i.val ≠ n := fun h => heq (Fin.ext h.symm)
      exact ih (by omega) (by omega)

/-- Pass `i` takes the halves on and gives the key `K[i]`. -/
theorem ksNext_keyPasses (key : Block) (i : Fin 16) :
    ksNext (keyPasses key i.val).1 (keyPasses key i.val).2.1 i =
      ((keyPasses key (i.val + 1)).1, (keyPasses key (i.val + 1)).2.1, readRk (deriveRoundKeys key) i) := by
  rw [deriveRoundKeys, readRk_keyPasses key i i.isLt le_rfl, keyPasses_succ, keyPass]

/-- The passes see the key only through `KS_INIT`. -/
theorem keyPasses_congr {key key' : Block} (h : ksInit key = ksInit key') (n : Nat) :
    keyPasses key n = keyPasses key' n := by
  induction n with
  | zero => rw [keyPasses, keyPasses, h]
  | succ n ih => rw [keyPasses, keyPasses, ih]

/-- Settles O23: the halves carried forward are those of `keyPasses`, and parity is lost in `KS_INIT`. -/
theorem deriveRoundKeysRunsSixteenPasses : Obligations.DeriveRoundKeysRunsSixteenPasses := by
  unfold Obligations.DeriveRoundKeysRunsSixteenPasses
  refine ⟨fun key s => ⟨deriveRoundKeys key, fun n => (keyPasses key n).1, fun n => (keyPasses key n).2.1, rfl, rfl,
    rfl, ksNext_keyPasses key⟩, fun key key' h => ?_, by decide +kernel, by decide +kernel⟩
  rw [deriveRoundKeys, deriveRoundKeys, keyPasses_congr (ksInit_congr h)]

end Sys2Proof.Machine
end

section
/-! Runs of the machine (spec/46_driver.md rules R157, R167): what the steps taken so far say of the state, by one
induction along the edges of a run. -/

namespace Sys2Proof.Machine

/-- Running `k + 1` edges: the first, then the rest. -/
theorem run_succ_next_iff (k : Nat) (s u : State) :
    Host.Core.run core (k + 1) s = .next u ↔ ∃ t, step s = .next t ∧ Host.Core.run core k t = .next u := by
  have hcore : core.step s = step s := rfl
  simp only [Host.Core.run, hcore]
  cases step s <;> simp

theorem trace_succ {s t : State} (h : step s = .next t) (k : Nat) :
    trace (k + 1) s = stepsTaken s :: trace k t := by
  rw [trace, h]

/-- What an edge of a run keeps, of the steps taken so far and the state, the run keeps. -/
theorem run_induction {P : List Instr → State → Prop}
    (hedge : ∀ {is s t}, P is s → step s = .next t → .start ∉ stepsTaken s → .reset ∉ stepsTaken s →
      P (is ++ stepsTaken s) t)
    {k : Nat} {s u : State} {is : List Instr} (hs : P is s) (hrun : Host.Core.run core k s = .next u)
    (hsteps : ∀ e ∈ trace k s, Instr.start ∉ e ∧ Instr.reset ∉ e) : P (is ++ (trace k s).flatten) u := by
  induction k generalizing s is with
  | zero =>
    cases hrun
    simpa [trace] using hs
  | succ k ih =>
    obtain ⟨t, hst, hrest⟩ := (run_succ_next_iff k s u).1 hrun
    rw [trace_succ hst] at hsteps ⊢
    obtain ⟨⟨hstart, hreset⟩, htail⟩ := List.forall_mem_cons.1 hsteps
    rw [List.flatten_cons, ← List.append_assoc]
    exact ih (hedge hs hst hstart hreset) hrest htail

/-- What holds after the `START` of a run, and what each further edge keeps, holds throughout the run. -/
theorem InRun.induction {P : List Instr → State → Prop}
    (hstart : ∀ s t, stepsTaken s = [.start] → step s = .next t → P [.start] t)
    (hedge : ∀ {is s t}, P is s → step s = .next t → .start ∉ stepsTaken s → .reset ∉ stepsTaken s →
      P (is ++ stepsTaken s) t)
    {k : Nat} {s u : State} (h : InRun (k + 1) s u) : P (trace (k + 1) s).flatten u := by
  obtain ⟨hfirst, hrun, htail⟩ := h
  obtain ⟨t, hst, hrest⟩ := (run_succ_next_iff k s u).1 hrun
  rw [trace_succ hst] at htail ⊢
  rw [List.flatten_cons, hfirst]
  exact run_induction hedge (hstart s t hfirst hst) hrest htail

/-- `START` is the first step of a run. -/
theorem InRun.stepsTaken_of_zero {s u : State} (h : InRun 0 s u) : stepsTaken u = [.start] := by
  obtain ⟨hfirst, hrun, -⟩ := h
  cases hrun
  exact hfirst

/-- A step is taken only where the select word enables it. -/
theorem enables_of_mem_stepsTaken {s : State} {i : Instr} (h : i ∈ stepsTaken s) : enables s.sel i = true := by
  cases hen : enabledSet s with
  | rejected r => simp [stepsTaken, hen] at h
  | enabled is =>
    rw [stepsTaken_of_enabledSet hen] at h
    exact (mem_enabledSet_iff hen i).1 (mem_of_mem_chooseSteps h)

end Sys2Proof.Machine
end

section
/-! Proofs about the two steps of the agent `KS` (spec/42_key_schedule.md rules R123, R124): where each is enabled, and
how far the key schedule has come at each edge of a run. -/

namespace Sys2Proof.Machine

/-! ### Where the steps are enabled (R72) -/

theorem enables_mkSel_ks (rst : Bool) (ph : Phase) (ld kd ip st : Bool) :
    (enables (mkSel rst ph.code ld kd ip st) .ksLoad = true ↔
      rst = false ∧ ph = .prep ∧ ld = false ∧ kd = false) ∧
    (enables (mkSel rst ph.code ld kd ip st) .ksRound = true ↔
      rst = false ∧ ph = .prep ∧ ld = true ∧ kd = false) := by
  revert rst ld kd ip st; cases ph <;> decide

theorem enables_ksLoad_iff (s : State) :
    enables s.sel .ksLoad = true ↔ s.ports.rst = false ∧ s.ph = .prep ∧ s.ksLd = false ∧ s.ksDone = false :=
  (enables_mkSel_ks ..).1

theorem enables_ksRound_iff (s : State) :
    enables s.sel .ksRound = true ↔ s.ports.rst = false ∧ s.ph = .prep ∧ s.ksLd = true ∧ s.ksDone = false :=
  (enables_mkSel_ks ..).2

theorem flags_of_ksLoad_taken {s : State} (h : .ksLoad ∈ stepsTaken s) : s.ksLd = false ∧ s.ksDone = false :=
  ((enables_ksLoad_iff s).1 (enables_of_mem_stepsTaken h)).2.2

theorem flags_of_ksRound_taken {s : State} (h : .ksRound ∈ stepsTaken s) : s.ksLd = true ∧ s.ksDone = false :=
  ((enables_ksRound_iff s).1 (enables_of_mem_stepsTaken h)).2.2

/-- With `KS_DONE = 0` a state of `PREP` is reserved only by `DONE` (R74). -/
theorem reserved_eq_false_of_prep {s : State} (hph : s.ph = .prep) (hkd : s.ksDone = false) (hdone : s.done = false) :
    s.reserved = false :=
  (s.reserved_eq_false_iff).2 (.inr (.inr ⟨hdone, .inl ⟨hph, by simp [hkd]⟩⟩))

section ExecKs
variable {s : State} (hrst : s.ports.rst = false) (hph : s.ph = .prep) (hkd : s.ksDone = false)
  (hdone : s.done = false)
include hrst hph hkd hdone

theorem exec_ksLoad (hld : s.ksLd = false) : exec .ksLoad s = .next (ksLoadEffect s) :=
  (exec_next_iff (by decide) s _).2
    ⟨reserved_eq_false_of_prep hph hkd hdone, (enables_ksLoad_iff s).2 ⟨hrst, hph, hld, hkd⟩, rfl⟩

theorem exec_ksRound (hld : s.ksLd = true) : exec .ksRound s = .next (ksRoundEffect s) :=
  (exec_next_iff (by decide) s _).2
    ⟨reserved_eq_false_of_prep hph hkd hdone, (enables_ksRound_iff s).2 ⟨hrst, hph, hld, hkd⟩, rfl⟩

end ExecKs

/-! ### The key schedule in a run -/

/-- How far the key schedule of a run has come, told by the flags and by `KI`, where `is` are the steps taken since
the `START`, in order. -/
structure KeyScheduleCounts (is : List Instr) (s : State) : Prop where
  loads : is.count .ksLoad = s.ksLd.toNat
  rounds : is.count .ksRound = s.ki.toNat + s.ksDone.toNat
  ki_of_not_loaded : s.ksLd = false → s.ki = 0
  ki_of_done : s.ksDone = true → s.ki = 15
  complete_of_final : .final ∈ is → s.ksLd = true ∧ s.ksDone = true

/-- `START` clears the flags and `KI`. -/
theorem keyScheduleCounts_start (s t : State) (hs : stepsTaken s = [.start]) (h : step s = .next t) :
    KeyScheduleCounts [.start] t := by
  obtain ⟨-, rfl⟩ := step_cases h
  rw [hs]
  constructor <;> simp

theorem KeyScheduleCounts.edge {is : List Instr} {s t : State} (hc : KeyScheduleCounts is s) (h : step s = .next t)
    (hstart : .start ∉ stepsTaken s) (hreset : .reset ∉ stepsTaken s) :
    KeyScheduleCounts (is ++ stepsTaken s) t := by
  obtain ⟨hloads, hrounds, hki, hdone, hfinal⟩ := hc
  have hnotFinal : s.ksDone = false → .final ∉ is := fun hkd hf => Bool.false_ne_true (hkd.symm.trans (hfinal hf).2)
  obtain ⟨hes, rfl⟩ := step_cases h
  generalize stepsTaken s = js at hes hstart hreset ⊢
  cases hes
  case start => simp at hstart
  case reset => simp at hreset
  case ksRound | ksRound_ipLoad =>
    -- the sixteenth pass sets `KS_DONE` instead of counting on
    by_cases h15 : s.ki = 15#4
    · constructor <;> simp [*]
    · constructor <;> simp [*, toNat_countUp_of_ne h15]
  all_goals constructor <;> simp +contextual [*]

theorem InRun.keyScheduleCounts {k : Nat} {s u : State} (h : InRun (k + 1) s u) :
    KeyScheduleCounts (trace (k + 1) s).flatten u :=
  h.induction keyScheduleCounts_start fun hc => hc.edge

/-- Settles O38: the step's meaning where it is enabled, and the counts of a run read at the flags it asks for. -/
theorem ksLoadStep : Obligations.KsLoadStep := by
  unfold Obligations.KsLoadStep
  refine ⟨fun s hrst hph hld hkd hdone => exec_ksLoad hrst hph hkd hdone hld, fun s t h => ?_, fun s t h hkey => ?_,
    fun k s u h => ?_⟩
  · obtain ⟨-, hen, -⟩ := (exec_next_iff (by decide) s t).1 h
    exact (enables_ksLoad_iff s).1 hen
  · obtain ⟨-, -, rfl⟩ := (exec_next_iff (by decide) s t).1 h
    have hinit : ksInit s.keyr = (0xF0CCAAF, 0x556678F) := by rw [hkey, ksInit_exampleKey]
    simp [hinit]
  · cases k with
    | zero => simp [h.stepsTaken_of_zero, trace]
    | succ k =>
      have hc := h.keyScheduleCounts
      refine ⟨fun hload => ?_, fun hround => ?_, fun hfinal => ?_⟩
      · obtain ⟨hld, -⟩ := flags_of_ksLoad_taken hload
        exact ⟨hc.ki_of_not_loaded hld, by rw [hc.loads, hld]; rfl⟩
      · obtain ⟨hld, -⟩ := flags_of_ksRound_taken hround
        rw [hc.loads, hld]; rfl
      · obtain ⟨hld, -⟩ := hc.complete_of_final hfinal
        rw [hc.loads, hld]; rfl

/-- Only `START` and `RESET` clear `KS_DONE` (R30). -/
theorem ksDone_of_step {s t : State} (hkd : s.ksDone = true) (h : step s = .next t)
    (hstart : .start ∉ stepsTaken s) (hreset : .reset ∉ stepsTaken s) : t.ksDone = true := by
  obtain ⟨hes, rfl⟩ := step_cases h
  generalize stepsTaken s = js at hes hstart hreset ⊢
  cases hes
  case start => simp at hstart
  case reset => simp at hreset
  all_goals simp [hkd]

theorem ks_not_mem_stepsTaken {s : State} (hkd : s.ksDone = true) :
    Instr.ksLoad ∉ stepsTaken s ∧ Instr.ksRound ∉ stepsTaken s := by
  refine ⟨fun h => ?_, fun h => ?_⟩
  · exact Bool.false_ne_true ((flags_of_ksLoad_taken h).2.symm.trans hkd)
  · exact Bool.false_ne_true ((flags_of_ksRound_taken h).2.symm.trans hkd)

theorem readRk_ksRoundEffect (s : State) (j : Fin 16) :
    readRk (ksRoundEffect s).rk j =
      if j.val = s.ki.toNat then (ksNext s.c s.d (counterIndex s.ki)).2.2 else readRk s.rk j := by
  simp only [ksRoundEffect_rk, readRk_writeRk, counterIndex, Fin.ext_iff, eq_comm]

/-- Settles O39: as for `KS_LOAD`; `KI` is the number of passes made until the sixteenth sets `KS_DONE`, after which
no `KS` step is enabled. -/
theorem ksRoundStep : Obligations.KsRoundStep := by
  unfold Obligations.KsRoundStep
  refine ⟨fun s c d k hrst hph hld hkd hdone hnext => ?_, fun s t h => ?_, fun s t h hc hd hki => ?_,
    fun k s u h => ?_, fun s t hkd => ?_⟩
  · refine ⟨_, exec_ksRound hrst hph hkd hdone hld, ?_, fun j => ?_, fun hki => ?_, fun hki => ?_⟩
    · simp [ksRoundEffect, hnext]
    · rw [readRk_ksRoundEffect, hnext]
    · simp [hki]
    · exact ⟨if_neg hki, (if_neg hki).trans hkd⟩
  · obtain ⟨-, hen, -⟩ := (exec_next_iff (by decide) s t).1 h
    exact (enables_ksRound_iff s).1 hen
  · obtain ⟨-, hen, rfl⟩ := (exec_next_iff (by decide) s t).1 h
    obtain ⟨-, -, -, hkd⟩ := (enables_ksRound_iff s).1 hen
    have hnext : ksNext s.c s.d (counterIndex s.ki) = (0xE19955F, 0xAACCF1E, 0x1B02EFFC7072) := by
      rw [hc, hd, hki]
      exact ksNext_exampleHalves
    refine ⟨by simp [hnext], by simp [hnext], ?_, by simp [hki, countUp], by simp [hki, hkd]⟩
    rw [stepEffect, readRk_ksRoundEffect, hnext, hki]; rfl
  · cases k with
    | zero => simp [h.stepsTaken_of_zero, trace]
    | succ k =>
      have hc := h.keyScheduleCounts
      refine ⟨fun hround => ?_, fun hfinal => ?_⟩
      · obtain ⟨-, hkd⟩ := flags_of_ksRound_taken hround
        rw [hc.rounds, hkd]; rfl
      · obtain ⟨-, hkd⟩ := hc.complete_of_final hfinal
        rw [hc.rounds, hc.ki_of_done hkd, hkd]; rfl
  · obtain ⟨hload, hround⟩ := ks_not_mem_stepsTaken hkd
    exact ⟨hload, hround, ksDone_of_step hkd⟩

end Sys2Proof.Machine
end

section
/-! Proofs about the Substitution Engine (spec/43_substitution.md rules R130, R131): a box row by row, each a
permutation of `0..15` (R116), and `SUBST` as the list of its eight boxes' positions. -/

namespace Sys2Proof.Machine

/-! ### The row and the column of a chunk (R130) -/

/-- Position `i` of a vector as a digit of the number it stands for. -/
theorem toNat_getMsbD {n i : Nat} (v : BitVec n) (hi : i < n) :
    (v.getMsbD i).toNat = v.toNat / 2 ^ (n - 1 - i) % 2 := by
  rw [BitVec.getMsbD_eq_getLsbD, decide_eq_true hi, Bool.true_and, ← BitVec.testBit_toNat, Nat.toNat_testBit]

section Chunk
variable (ch : BitVec 6)

theorem sboxRow_lt : sboxRow ch < 4 := by
  have h0 := Bool.toNat_le (ch.getMsbD 0)
  have h5 := Bool.toNat_le (ch.getMsbD 5)
  rw [sboxRow]
  omega

theorem sboxCol_lt : sboxCol ch < 16 := by
  have h1 := Bool.toNat_le (ch.getMsbD 1)
  have h2 := Bool.toNat_le (ch.getMsbD 2)
  have h3 := Bool.toNat_le (ch.getMsbD 3)
  have h4 := Bool.toNat_le (ch.getMsbD 4)
  rw [sboxCol]
  omega

theorem sboxRow_eq : sboxRow ch = 2 * (ch.toNat / 32) + ch.toNat % 2 := by
  have hlt : ch.toNat < 64 := ch.isLt
  simp only [sboxRow, toNat_getMsbD, Nat.reduceLT, Nat.reduceSub, Nat.reducePow]
  omega

theorem sboxCol_eq : sboxCol ch = ch.toNat / 2 % 16 := by
  simp only [sboxCol, toNat_getMsbD, Nat.reduceLT, Nat.reduceSub, Nat.reducePow]
  omega

end Chunk

/-- The cell a chunk selects in a box: its row and its column. -/
def sboxCell (ch : BitVec 6) : Nat × Nat :=
  (sboxRow ch, sboxCol ch)

/-- The 64 chunks select each of the 4 x 16 cells once. -/
theorem sboxCell_perm :
    ((List.range 64).map fun x => sboxCell (BitVec.ofNat 6 x)).Perm ((List.range 4).product (List.range 16)) := by
  decide

/-! ### The rows of a box (R116) -/

/-- Every row of every box is a permutation of `0..15`. -/
theorem sBoxRead_row_perm :
    ∀ (b : Fin 8), ∀ r < 4, ((List.range 16).map (sBoxRead b.val r)).Perm (List.range 16) := by
  decide

theorem sBoxRead_lt (b : Fin 8) {r c : Nat} (hr : r < 4) (hc : c < 16) : sBoxRead b.val r c < 16 := by
  have hmem : sBoxRead b.val r c ∈ (List.range 16).map (sBoxRead b.val r) :=
    List.mem_map_of_mem (List.mem_range.2 hc)
  exact List.mem_range.1 ((sBoxRead_row_perm b r hr).mem_iff.1 hmem)

/-- The cells of box `b` that hold the value `y`. -/
def cellHolds (b : Fin 8) (y : BitVec 4) (cell : Nat × Nat) : Bool :=
  BitVec.ofNat 4 (sBoxRead b.val cell.1 cell.2) == y

theorem cellHolds_sboxCell (b : Fin 8) (y : BitVec 4) (ch : BitVec 6) :
    cellHolds b y (sboxCell ch) = (sbox b ch == y) := rfl

/-- A row holds each 4-bit value in exactly one column. -/
theorem countP_cellHolds_row (b : Fin 8) (y : BitVec 4) {r : Nat} (hr : r < 4) :
    (List.range 16).countP (fun c => cellHolds b y (r, c)) = 1 := by
  have hvalues : (List.range 16).countP (fun t => BitVec.ofNat 4 t == y) = 1 := by
    revert y; decide
  rwa [← (sBoxRead_row_perm b r hr).countP_eq, List.countP_map] at hvalues

/-- A count over a product whose rows all count the same. -/
theorem countP_product {α β : Type} {p : α × β → Bool} {k : Nat} (as : List α) {bs : List β}
    (h : ∀ a ∈ as, bs.countP (fun b => p (a, b)) = k) : (as.product bs).countP p = as.length * k := by
  have hrow : ∀ a ∈ as, (List.countP p ∘ fun a => bs.map (Prod.mk a)) a = k := fun a ha => by
    rw [← h a ha, Function.comp_apply, List.countP_map]
    rfl
  rw [List.product, List.countP_flatMap, List.map_congr_left hrow, List.map_const', List.sum_replicate_nat]

/-! ### `SBOX` (R130) -/

theorem toNat_sbox (b : Fin 8) (ch : BitVec 6) : (sbox b ch).toNat = sBoxRead b.val (sboxRow ch) (sboxCol ch) := by
  rw [sbox, BitVec.toNat_ofNat, Nat.mod_eq_of_lt (sBoxRead_lt b (sboxRow_lt ch) (sboxCol_lt ch))]

/-- Each value of a box comes from four chunks: one in each row. -/
theorem length_filter_sbox (b : Fin 8) (y : BitVec 4) :
    ((List.range 64).filter fun x => sbox b (BitVec.ofNat 6 x) == y).length = 4 := by
  simp only [← cellHolds_sboxCell]
  calc ((List.range 64).filter fun x => cellHolds b y (sboxCell (BitVec.ofNat 6 x))).length
      = ((List.range 64).map fun x => sboxCell (BitVec.ofNat 6 x)).countP (cellHolds b y) := by
        rw [← List.countP_eq_length_filter, List.countP_map]
        rfl
    _ = ((List.range 4).product (List.range 16)).countP (cellHolds b y) := sboxCell_perm.countP_eq _
    _ = 4 := countP_product _ fun r hr => countP_cellHolds_row b y (List.mem_range.1 hr)

/-- Settles O24: the row and column read by position are those of the number, and each row of a box holds each value
once. -/
theorem sboxLooksUpRowAndColumn : Obligations.SboxLooksUpRowAndColumn := by
  unfold Obligations.SboxLooksUpRowAndColumn
  refine ⟨fun b ch s => ⟨sbox b ch, rfl, toNat_sbox b ch, ?_⟩, length_filter_sbox, ?_⟩
  · rw [toNat_sbox, sboxRow_eq, sboxCol_eq]
  · decide

/-! ### `SUBST` (R131) -/

theorem positions_append {p q : Nat} (a : BitVec p) (b : BitVec q) :
    positions (a ++ b) = positions a ++ positions b := by
  have hleft : (List.range p).map (a ++ b).getMsbD = positions a :=
    List.map_congr_left fun _ hi => getMsbD_concat_left a b (List.mem_range.1 hi)
  have hright : (List.range q).map (fun i => (a ++ b).getMsbD (p + i)) = positions b :=
    List.map_congr_left fun _ _ => getMsbD_concat_right a b
  rw [positions, List.range_add, List.map_append, List.map_map, hleft]
  exact congrArg _ hright

/-- The output's positions are the eight boxes', in box order. -/
theorem positions_subst (v : RoundKey) :
    positions (subst v) = (List.finRange 8).flatMap fun b => positions (sbox b (sub v (6 * b.val) 6)) := by
  -- the width as the eight outputs add it up, which `positions_append` takes apart
  change positions (n := 4 + 4 + 4 + 4 + 4 + 4 + 4 + 4) (subst v) = _
  simp only [subst, positions_append]
  simp [List.finRange_succ]

theorem getMsbD_subst (v : RoundKey) (b : Fin 8) {j : Nat} (hj : j < 4) :
    (subst v).getMsbD (4 * b.val + j) = (sbox b (sub v (6 * b.val) 6)).getMsbD j := by
  rw [← getD_positions, positions_subst, getD_flatMap_positions _ _ (by simp) hj, List.getElem_finRange]
  rfl

/-- Settles O25: the output's positions are the boxes' in order, four for each box; the example by evaluation. -/
theorem substAppliesTheEightBoxes : Obligations.SubstAppliesTheEightBoxes := by
  unfold Obligations.SubstAppliesTheEightBoxes
  exact ⟨fun v s => ⟨subst v, rfl, rfl, fun b _ hj => getMsbD_subst v b hj⟩, by decide⟩

end Sys2Proof.Machine
end

section
/-! Proofs about the Feistel Round Engine (spec/44_round.md rules R140 to R142): `EXPAND` and `FEISTEL_F` by positions,
and the rules' values, each from the one before it where the rule computes it so. -/

namespace Sys2Proof.Machine

/-! ### `EXPAND` (R140) -/

theorem length_e : Config.e.length = 48 := rfl

/-- Chunk `b` of `E` names six consecutive positions around a ring of 32, from the one before `4b` (R106). -/
theorem e_chunk : ∀ (b : Fin 8), ∀ j < 6, tableRead Config.e (6 * b.val + j) - 1 = (4 * b.val + j + 31) % 32 := by
  decide

theorem getMsbD_expand (r : Half) {i : Nat} (hi : i < 48) :
    (expand r).getMsbD i = r.getMsbD (tableRead Config.e i - 1) :=
  getMsbD_permute_tableRead r length_e hi

theorem getMsbD_expand_chunk (r : Half) (b : Fin 8) {j : Nat} (hj : j < 6) :
    (expand r).getMsbD (6 * b.val + j) = r.getMsbD ((4 * b.val + j + 31) % 32) := by
  rw [getMsbD_expand r (by omega), e_chunk b j hj]

theorem expand_zero : expand 0 = 0 := by decide

theorem expand_allOnes : expand (BitVec.allOnes 32) = BitVec.allOnes 48 := by decide

/-- Settles O26: each position is read off table `E`, whose chunks run around the ring of 32. -/
theorem expandCopiesByTableE : Obligations.ExpandCopiesByTableE := by
  unfold Obligations.ExpandCopiesByTableE
  refine ⟨fun r s => ⟨expand r, rfl, rfl, fun i hi => getMsbD_expand r hi, fun b j hj => ?_⟩,
    expand_zero, expand_allOnes, by decide⟩
  exact getMsbD_expand_chunk r b hj

/-! ### `FEISTEL_F` (R141) -/

theorem length_p : Config.p.length = 32 := rfl

theorem getMsbD_feistelF (r : Half) (k : RoundKey) {i : Nat} (hi : i < 32) :
    (feistelF r k).getMsbD i = (subst (xorBits (expand r) k)).getMsbD (tableRead Config.p i - 1) :=
  getMsbD_permute_tableRead _ length_p hi

/-- The half and the key are seen only through the XOR of the expanded half with the key. -/
theorem feistelF_congr {r r' : Half} {k k' : RoundKey} (h : xorBits (expand r) k = xorBits (expand r') k') :
    feistelF r k = feistelF r' k' := by
  rw [feistelF, feistelF, h]

/-- A key equal to the expanded half cancels it, as the zero key does the zero half. -/
theorem feistelF_expand_self (r : Half) : feistelF r (expand r) = feistelF 0 0 :=
  feistelF_congr <| by
    rw [expand_zero]
    exact BitVec.xor_self.trans BitVec.xor_self.symm

theorem feistelF_zero : feistelF 0 0 = 0xD8D8DBBC := by decide +kernel

theorem feistelF_allOnes : feistelF (BitVec.allOnes 32) (BitVec.allOnes 48) = 0xD8D8DBBC := by
  rw [← expand_allOnes, feistelF_expand_self, feistelF_zero]

/-- Round 0 of the source's known answer. -/
theorem feistelF_example : feistelF 0xF0AAF0AA 0x1B02EFFC7072 = 0x234AA9BB := by decide +kernel

/-- Settles O27: `P` is applied to the substituted XOR by position, and nothing else of the operands is read. -/
theorem feistelFComposesInOrder : Obligations.FeistelFComposesInOrder := by
  unfold Obligations.FeistelFComposesInOrder
  refine ⟨fun r k s => ⟨feistelF r k, rfl, rfl, fun i hi => getMsbD_feistelF r k hi⟩,
    fun r r' k k' h => feistelF_congr h, feistelF_zero, feistelF_allOnes, ?_, feistelF_example⟩
  decide +kernel

/-! ### `ROUND_FN` (R142) -/

theorem roundFn_eq (l r : Half) (k : RoundKey) : roundFn l r k = (r, xorBits l (feistelF r k)) := rfl

theorem exec_roundFn (l r : Half) (k : RoundKey) (s : State) :
    exec (.roundFn l r k) s = .next (s.withFnOut [⟨32, (roundFn l r k).1⟩, ⟨32, (roundFn l r k).2⟩]) := rfl

/-- Settles O28: both results are of the old halves, and the values follow from those of `FEISTEL_F`. -/
theorem roundFnCrossesOver : Obligations.RoundFnCrossesOver := by
  unfold Obligations.RoundFnCrossesOver
  refine ⟨fun l r k s => ⟨exec_roundFn l r k s, roundFn_eq l r k⟩, ?_, ?_⟩
  · rw [roundFn_eq, feistelF_zero]
    decide
  · rw [roundFn_eq, feistelF_example]
    decide

end Sys2Proof.Machine
end

section
/-! Proofs about the two block permutations (spec/45_permutations.md rules R150, R151): `IP` and `FP` as tables that
name each position once, each undoing the other. -/

namespace Sys2Proof.Machine

/-! ### Tables that name each position once -/

theorem positions_permute {n m : Nat} (v : BitVec n) {t : List Nat} (ht : t.length = m) :
    positions (permute v t : BitVec m) = t.map fun e => v.getMsbD (e - 1) := by
  refine List.ext_getElem (by simp [ht]) fun i _ hi => ?_
  have hit : i < t.length := by simpa using hi
  simp [positions, getMsbD_permute v ht hit]

theorem positions_eq_map_range' {n : Nat} (v : BitVec n) :
    positions v = (List.range' 1 n).map fun e => v.getMsbD (e - 1) := by
  simp [positions, List.range'_eq_map_range, Function.comp_def]

/-- `n` different entries in `1 .. n` are all of `1 .. n`. -/
theorem SquareTable.perm_range' {n : Nat} {t : List Nat} (ht : SquareTable n t) (hnodup : t.Nodup) :
    t.Perm (List.range' 1 n) := by
  have hsub : t ⊆ List.range' 1 n := fun e he => by
    have := ht.mem_range e he
    rw [List.mem_range'_1]
    omega
  exact (List.subperm_of_subset hnodup hsub).perm_of_length_le (by rw [List.length_range', ht.length_eq])

/-- Such a table only reorders the bits. -/
theorem SquareTable.positions_permute_perm {n : Nat} {t : List Nat} (ht : SquareTable n t) (hnodup : t.Nodup)
    (v : BitVec n) : (positions (permute v t : BitVec n)).Perm (positions v) := by
  rw [positions_permute v ht.length_eq, positions_eq_map_range' v]
  exact (ht.perm_range' hnodup).map _

/-! ### `IP_FN` and `FP_FN` (R150, R151) -/

theorem squareTable_ip : SquareTable 64 Config.ip := ⟨rfl, by decide⟩

theorem squareTable_fp : SquareTable 64 Config.fp := ⟨rfl, by decide⟩

theorem leftInverse_fp_ip : Function.LeftInverse squareTable_fp.source squareTable_ip.source :=
  squareTable_ip.leftInverse_source squareTable_fp (by decide)

theorem ipFn_fpFn (b : Block) : ipFn (fpFn b) = b :=
  squareTable_fp.permute_permute squareTable_ip leftInverse_fp_ip b

theorem fpFn_ipFn (b : Block) : fpFn (ipFn b) = b :=
  squareTable_ip.permute_permute squareTable_fp (leftInverse_fp_ip.rightInverse_of_card_le le_rfl) b

theorem fpFn_bijective : Function.Bijective fpFn :=
  Function.bijective_iff_has_inverse.2 ⟨ipFn, ipFn_fpFn, fpFn_ipFn⟩

theorem count_true_ipFn (b : Block) : (positions (ipFn b)).count true = (positions b).count true :=
  (squareTable_ip.positions_permute_perm (by decide) b).count_eq true

/-- The permuted block of the spec's example block `P*`. -/
theorem ipFn_exampleBlock : ipFn 0x0123456789ABCDEF = 0xCC00CCFFF0AAF0AA := by decide +kernel

/-- Settles O29: each position is read off `IP`, which names all 64 once and so only reorders the bits. -/
theorem ipFnPermutesByIp : Obligations.IpFnPermutesByIp := by
  unfold Obligations.IpFnPermutesByIp
  refine ⟨fun b s => ⟨ipFn b, rfl, rfl, fun i hi => ?_, count_true_ipFn b⟩, by decide +kernel, by decide +kernel,
    by decide +kernel, by decide +kernel, ipFn_exampleBlock⟩
  exact getMsbD_permute_tableRead b squareTable_ip.length_eq hi

/-- Settles O30: each position is read off `FP`, and `IP_FN` is the inverse on both sides. -/
theorem fpFnPermutesByFp : Obligations.FpFnPermutesByFp := by
  unfold Obligations.FpFnPermutesByFp
  refine ⟨fun b s => ⟨fpFn b, rfl, rfl, fun i hi => ?_⟩, fpFn_bijective, by decide +kernel, by decide +kernel,
    by decide +kernel, by decide +kernel, by decide +kernel⟩
  exact getMsbD_permute_tableRead b squareTable_fp.length_eq hi

end Sys2Proof.Machine
end

section
/-! Proofs about the step of the agent `IPU` (spec/45_permutations.md rule R152): where it is enabled, that `IP_DONE`
counts it in a run, and who else writes `L` and `R`. -/

namespace Sys2Proof.Machine

/-! ### Where the step is enabled (R72) -/

theorem enables_mkSel_ipLoad (rst : Bool) (ph : Phase) (ld kd ip st : Bool) :
    enables (mkSel rst ph.code ld kd ip st) .ipLoad = true ↔ rst = false ∧ ph = .prep ∧ ip = false := by
  revert rst ld kd ip st; cases ph <;> decide

theorem enables_ipLoad_iff (s : State) :
    enables s.sel .ipLoad = true ↔ s.ports.rst = false ∧ s.ph = .prep ∧ s.ipDone = false :=
  enables_mkSel_ipLoad ..

theorem exec_ipLoad {s : State} (hrst : s.ports.rst = false) (hph : s.ph = .prep) (hip : s.ipDone = false)
    (hflags : s.ksDone = true → s.ksLd = true) (hdone : s.done = false) :
    exec .ipLoad s = .next (ipLoadEffect s) := by
  have hres : s.reserved = false := (s.reserved_eq_false_iff).2 (.inr (.inr ⟨hdone, .inl ⟨hph, hflags⟩⟩))
  exact (exec_next_iff (by decide) s _).2 ⟨hres, (enables_ipLoad_iff s).2 ⟨hrst, hph, hip⟩, rfl⟩

theorem ipDone_of_ipLoad_taken {s : State} (h : .ipLoad ∈ stepsTaken s) : s.ipDone = false :=
  ((enables_ipLoad_iff s).1 (enables_of_mem_stepsTaken h)).2.2

/-! ### `IP_LOAD` in a run -/

/-- Whether a run has loaded its block, told by `IP_DONE`, where `is` are the steps taken since the `START`. -/
structure IpLoadCounts (is : List Instr) (s : State) : Prop where
  loads : is.count .ipLoad = s.ipDone.toNat
  complete_of_final : .final ∈ is → s.ipDone = true

/-- `START` clears `IP_DONE`. -/
theorem ipLoadCounts_start (s t : State) (hs : stepsTaken s = [.start]) (h : step s = .next t) :
    IpLoadCounts [.start] t := by
  obtain ⟨-, rfl⟩ := step_cases h
  rw [hs]
  constructor <;> simp

theorem IpLoadCounts.edge {is : List Instr} {s t : State} (hc : IpLoadCounts is s) (h : step s = .next t)
    (hstart : .start ∉ stepsTaken s) (hreset : .reset ∉ stepsTaken s) : IpLoadCounts (is ++ stepsTaken s) t := by
  obtain ⟨hloads, hfinal⟩ := hc
  obtain ⟨hes, rfl⟩ := step_cases h
  generalize stepsTaken s = js at hes hstart hreset ⊢
  cases hes
  case start => simp at hstart
  case reset => simp at hreset
  all_goals constructor <;> simp +contextual [*]

theorem InRun.ipLoadCounts {k : Nat} {s u : State} (h : InRun (k + 1) s u) :
    IpLoadCounts (trace (k + 1) s).flatten u :=
  h.induction ipLoadCounts_start fun hc => hc.edge

/-! ### The permuted block waits for the first `ROUND` -/

/-- With `IP_DONE = 1` only `ROUND` and `RESET` write `L` and `R`, and only `START` and `RESET` clear the flag. -/
theorem halves_of_step {s t : State} (h : step s = .next t) (hip : s.ipDone = true) (hround : .round ∉ stepsTaken s)
    (hstart : .start ∉ stepsTaken s) (hreset : .reset ∉ stepsTaken s) :
    t.l = s.l ∧ t.r = s.r ∧ t.ipDone = true := by
  obtain ⟨hes, rfl⟩ := step_cases h
  generalize stepsTaken s = is at hes hround hstart hreset ⊢
  cases hes
  case round => simp at hround
  case start => simp at hstart
  case reset => simp at hreset
  case ipLoad hload | ksLoad_ipLoad hload | ksRound_ipLoad hload =>
    exact absurd (hload.symm.trans hip) Bool.false_ne_true
  all_goals simp [hip]

/-- Settles O40: the step's meaning where it is enabled, `IP_DONE` as its count in a run, and the frame of `L`, `R`. -/
theorem ipLoadStep : Obligations.IpLoadStep := by
  unfold Obligations.IpLoadStep
  refine ⟨fun s hrst hph hip hflags hdone => exec_ipLoad hrst hph hip hflags hdone, fun s t h => ?_,
    fun s t h hblock => ?_, fun k s u h => ?_, fun s t h => halves_of_step h⟩
  · obtain ⟨-, hen, -⟩ := (exec_next_iff (by decide) s t).1 h
    exact (enables_ipLoad_iff s).1 hen
  · obtain ⟨-, -, rfl⟩ := (exec_next_iff (by decide) s t).1 h
    have hhalves : split 32 (ipFn s.dinr) = (0xCC00CCFF, 0xF0AAF0AA) := by
      rw [hblock, ipFn_exampleBlock]
      decide
    simp [hhalves]
  · cases k with
    | zero => simp [h.stepsTaken_of_zero, trace]
    | succ k =>
      have hc := h.ipLoadCounts
      refine ⟨fun hload => ?_, fun hfinal => ?_⟩
      · rw [hc.loads, ipDone_of_ipLoad_taken hload]; rfl
      · rw [hc.loads, hc.complete_of_final hfinal]; rfl

end Sys2Proof.Machine
end

section
/-! Proofs about the cipher (spec/46_driver.md rule R155): `ENCRYPT_BLOCK` as sixteen rounds between the two block
permutations. -/

namespace Sys2Proof.Machine

theorem feistelRounds_succ (rk : RoundKeys) (l r : Half) (i : Fin 16) :
    feistelRounds rk l r (i.val + 1) =
      roundFn (feistelRounds rk l r i.val).1 (feistelRounds rk l r i.val).2 (readRk rk i) := by
  rw [feistelRounds, Fin.ofNat_val_eq_self]

/-- The right half goes first (R155). -/
theorem finish_eq (l r : Half) : finish l r = fpFn (r ++ l) := rfl

/-- What the sixteen rounds leave of a block's halves is all the last permutation needs. -/
theorem finish_of_feistelRounds {pt key : Block} {l r : Half}
    (h : (l, r) = feistelRounds (deriveRoundKeys key) (split 32 (ipFn pt)).1 (split 32 (ipFn pt)).2 16) :
    finish l r = encryptBlock pt key := by
  rw [encryptBlock, ← h]

theorem deriveRoundKeys_congr {key key' : Block} (h : ∀ i < 64, i % 8 ≠ 7 → key.getMsbD i = key'.getMsbD i) :
    deriveRoundKeys key = deriveRoundKeys key' := by
  rw [deriveRoundKeys, deriveRoundKeys, keyPasses_congr (ksInit_congr h)]

/-- Settles O32: the halves are those of `feistelRounds`, the key is seen only through its round keys, and the values
by evaluation. -/
theorem encryptBlockRunsThePipeline : Obligations.EncryptBlockRunsThePipeline := by
  unfold Obligations.EncryptBlockRunsThePipeline
  refine ⟨fun pt key s => ?_, fun pt key key' h => ?_, by decide +kernel, by decide +kernel⟩
  · let halves := feistelRounds (deriveRoundKeys key) (split 32 (ipFn pt)).1 (split 32 (ipFn pt)).2
    exact ⟨encryptBlock pt key, fun n => (halves n).1, fun n => (halves n).2, rfl, rfl, rfl,
      feistelRounds_succ _ _ _, rfl⟩
  · rw [encryptBlock, encryptBlock, deriveRoundKeys_congr h]

end Sys2Proof.Machine
end

section
/-! The clock edge in a control state that is not reserved (spec/30_encoding.md rules R73, R74): every step taken
completes, and which ports it sees. -/

namespace Sys2Proof.Machine

/-! ### Every step taken completes -/

theorem exec_of_mem_enabledSteps {s : State} {i : Instr} (hres : s.reserved = false) (hi : i ∈ s.enabledSteps) :
    exec i s = .next (stepEffect i s) := by
  have hen : enabledSet s = .enabled s.enabledSteps := (enabledSet_eq_enabled_iff s _).2 ⟨hres, rfl⟩
  exact (exec_next_iff (agent_ne_none_of_mem_enabledSet hen hi) s _).2 ⟨hres, (mem_enabledSet_iff hen i).1 hi, rfl⟩

/-- The first step taken completes; `IP_LOAD` as the second finds what it needs, which no `KS` step writes (R63). -/
theorem runSteps_of_edgeSteps {s : State} {is : List Instr} (hes : EdgeSteps s is)
    (hexec : ∀ i ∈ is, exec i s = .next (stepEffect i s)) : runSteps is s = .next (takeSteps is s) := by
  cases hes
  case ksLoad_ipLoad hrst hph hdone _ _ hip =>
    have hsecond : exec .ipLoad (ksLoadEffect s) = .next (ipLoadEffect (ksLoadEffect s)) :=
      exec_ipLoad hrst hph hip (fun _ => rfl) hdone
    simp [runSteps, hexec .ksLoad, hsecond]
  case ksRound_ipLoad hrst hph hdone hld _ hip =>
    have hsecond : exec .ipLoad (ksRoundEffect s) = .next (ipLoadEffect (ksRoundEffect s)) :=
      exec_ipLoad hrst hph hip (fun _ => hld) hdone
    simp [runSteps, hexec .ksRound, hsecond]
  all_goals exact (runSteps_cons_next_iff ..).2 ⟨_, hexec _ (List.mem_singleton_self _), rfl⟩

/-- Outside the reserved states the clock edge has a next state: the effects of the steps taken, at the next edge. -/
theorem step_of_not_reserved {s : State} (hres : s.reserved = false) :
    step s = .next ((takeSteps (stepsTaken s) s).endEdge s.enabledSteps) := by
  have hen : enabledSet s = .enabled s.enabledSteps := (enabledSet_eq_enabled_iff s _).2 ⟨hres, rfl⟩
  have hexec : ∀ i ∈ stepsTaken s, exec i s = .next (stepEffect i s) := fun i hi =>
    exec_of_mem_enabledSteps hres ((mem_enabledSet_iff hen i).2 (enables_of_mem_stepsTaken hi))
  have hrun := runSteps_of_edgeSteps (edgeSteps_stepsTaken hen) hexec
  rw [stepsTaken_of_enabledSet hen] at hrun ⊢
  exact (clockEdge_next_iff s _).2 ⟨_, _, hen, hrun, rfl⟩

theorem stepsTaken_of_enabledSteps {s : State} {i : Instr} (hres : s.reserved = false) (hen : s.enabledSteps = [i]) :
    stepsTaken s = [i] := by
  rw [stepsTaken_of_enabledSet ((enabledSet_eq_enabled_iff s _).2 ⟨hres, rfl⟩), hen]
  rfl

theorem step_of_enabledSteps {s : State} {i : Instr} (hres : s.reserved = false) (hen : s.enabledSteps = [i]) :
    step s = .next ((stepEffect i s).endEdge [i]) := by
  rw [step_of_not_reserved hres, stepsTaken_of_enabledSteps hres hen, hen]
  rfl

/-! ### Only `START` reads the data ports (R160) -/

theorem stepEffect_hostInputs {i : Instr} (hi : i ≠ .start) (s : State) (xs : List Ports) :
    stepEffect i { s with hostInputs := xs } = { stepEffect i s with hostInputs := xs } := by
  cases i
  case start => exact absurd rfl hi
  all_goals rfl

theorem takeSteps_hostInputs {is : List Instr} (his : .start ∉ is) (s : State) (xs : List Ports) :
    takeSteps is { s with hostInputs := xs } = { takeSteps is s with hostInputs := xs } := by
  induction is generalizing s with
  | nil => rfl
  | cons i is ih =>
    rw [List.mem_cons, not_or] at his
    obtain ⟨hi, hrest⟩ := his
    rw [takeSteps_cons, stepEffect_hostInputs (Ne.symm hi), ih hrest, takeSteps_cons]

theorem State.with_hostInputs_eq {s : State} {xs : List Ports} (h : s.hostInputs = xs) :
    { s with hostInputs := xs } = s := by
  rw [← h]

/-- An edge that takes no `START` sees of its port sample only `rst`, and what `start` enables. -/
theorem step_hostInputs_congr {s : State} {p q : Ports} {ps : List Ports} (hs : s.hostInputs = p :: ps)
    (hrst : q.rst = p.rst)
    (hen : State.enabledSteps { s with hostInputs := q :: ps } = s.enabledSteps) (hstart : .start ∉ stepsTaken s) :
    step { s with hostInputs := q :: ps } = step s := by
  have hres : State.reserved { s with hostInputs := q :: ps } = s.reserved := by
    have hports : State.ports { s with hostInputs := q :: ps } = q := rfl
    rw [Bool.eq_iff_iff, State.reserved_iff, State.reserved_iff, hports, ports_of_hostInputs hs, hrst]
  cases hr : s.reserved with
  | true => rw [step_of_reserved hr, step_of_reserved (hres.trans hr)]
  | false =>
    have hchoice : State.choice { s with hostInputs := q :: ps } = s.choice := rfl
    have htaken : stepsTaken { s with hostInputs := q :: ps } = stepsTaken s := by
      rw [stepsTaken_of_enabledSet ((enabledSet_eq_enabled_iff _ _).2 ⟨hres.trans hr, rfl⟩),
        stepsTaken_of_enabledSet ((enabledSet_eq_enabled_iff _ _).2 ⟨hr, rfl⟩), hen, hchoice]
    have hsame : takeSteps (stepsTaken s) s = { takeSteps (stepsTaken s) s with hostInputs := p :: ps } := by
      rw [← takeSteps_hostInputs hstart, State.with_hostInputs_eq hs]
    rw [step_of_not_reserved hr, step_of_not_reserved (hres.trans hr), htaken, hen, takeSteps_hostInputs hstart, hsame]
    rfl

end Sys2Proof.Machine
end

section
/-! Proofs about the steps of the agent `DRV` outside a run (spec/46_driver.md rules R160 to R164, R166): where each
is enabled, what it writes, and that `start` and the data ports matter only to `START`. -/

namespace Sys2Proof.Machine

/-! ### Where the steps are enabled (R72) -/

theorem enables_mkSel_idle_start (rst : Bool) (ph : Phase) (ld kd ip st : Bool) :
    (enables (mkSel rst ph.code ld kd ip st) .idle = true ↔ rst = false ∧ ph = .idle ∧ st = false) ∧
    (enables (mkSel rst ph.code ld kd ip st) .start = true ↔ rst = false ∧ ph = .idle ∧ st = true) := by
  revert rst ld kd ip st; cases ph <;> decide

theorem enables_mkSel_join_round_final (rst : Bool) (ph : Phase) (ld kd ip st : Bool) :
    enables (mkSel rst ph.code ld kd ip st) .join = (!rst && ph == .prep && ld && kd && ip) ∧
    enables (mkSel rst ph.code ld kd ip st) .round = (!rst && ph == .rounds && ld && kd && ip) ∧
    enables (mkSel rst ph.code ld kd ip st) .final = (!rst && ph == .final && ld && kd && ip) := by
  revert rst ld kd ip st; cases ph <;> decide

section Enabled
variable (s : State)

theorem enables_idle_iff :
    enables s.sel .idle = true ↔ s.ports.rst = false ∧ s.ph = .idle ∧ s.ports.start = false :=
  (enables_mkSel_idle_start ..).1

theorem enables_start_iff :
    enables s.sel .start = true ↔ s.ports.rst = false ∧ s.ph = .idle ∧ s.ports.start = true :=
  (enables_mkSel_idle_start ..).2

theorem enables_join_iff :
    enables s.sel .join = true ↔
      s.ports.rst = false ∧ s.ph = .prep ∧ s.ksLd = true ∧ s.ksDone = true ∧ s.ipDone = true := by
  simp [State.sel, (enables_mkSel_join_round_final ..).1, and_assoc]

theorem enables_round_iff :
    enables s.sel .round = true ↔
      s.ports.rst = false ∧ s.ph = .rounds ∧ s.ksLd = true ∧ s.ksDone = true ∧ s.ipDone = true := by
  simp [State.sel, (enables_mkSel_join_round_final ..).2.1, and_assoc]

theorem enables_final_iff :
    enables s.sel .final = true ↔
      s.ports.rst = false ∧ s.ph = .final ∧ s.ksLd = true ∧ s.ksDone = true ∧ s.ipDone = true := by
  simp [State.sel, (enables_mkSel_join_round_final ..).2.2, and_assoc]

end Enabled

theorem reserved_eq_false_of_idle {s : State} (hph : s.ph = .idle) : s.reserved = false :=
  (s.reserved_eq_false_iff).2 (.inr (.inl hph))

theorem enabledSteps_of_idle {s : State} (hrst : s.ports.rst = false) (hph : s.ph = .idle) :
    s.enabledSteps = if s.ports.start then [.start] else [.idle] := by
  simp [State.enabledSteps, phaseSteps, hrst, hph]

theorem start_not_mem_stepsTaken {s : State} (hph : s.ph ≠ .idle) : Instr.start ∉ stepsTaken s := fun h =>
  hph ((enables_start_iff s).1 (enables_of_mem_stepsTaken h)).2.1

theorem round_not_mem_stepsTaken {s : State} (hph : s.ph ≠ .rounds) : Instr.round ∉ stepsTaken s := fun h =>
  hph ((enables_round_iff s).1 (enables_of_mem_stepsTaken h)).2.1

/-! ### `IDLE` (R161) -/

theorem exec_idle {s : State} (hrst : s.ports.rst = false) (hph : s.ph = .idle) (hst : s.ports.start = false) :
    exec .idle s = .next s :=
  (exec_next_iff (by decide) s _).2 ⟨reserved_eq_false_of_idle hph, (enables_idle_iff s).2 ⟨hrst, hph, hst⟩, rfl⟩

/-- An edge without a request only moves time on (log 1, 6). -/
theorem step_of_idle {s : State} (hrst : s.ports.rst = false) (hph : s.ph = .idle) (hst : s.ports.start = false) :
    step s = .next { s with hostInputs := s.hostInputs.tail, edge := s.edge + 1 } :=
  step_of_enabledSteps (i := .idle) (reserved_eq_false_of_idle hph) (by rw [enabledSteps_of_idle hrst hph, hst]; rfl)

theorem run_of_idle {n : Nat} {s : State} (hph : s.ph = .idle) (hn : n ≤ s.hostInputs.length)
    (hquiet : ∀ p ∈ s.hostInputs.take n, p.rst = false ∧ p.start = false) :
    Host.Core.run core n s = .next { s with hostInputs := s.hostInputs.drop n, edge := s.edge + n } := by
  induction n generalizing s with
  | zero => rfl
  | succ n ih =>
    cases hs : s.hostInputs with
    | nil => simp [hs] at hn
    | cons p ps =>
      rw [hs, List.take_succ_cons] at hquiet
      obtain ⟨⟨hrst, hst⟩, hrest⟩ := List.forall_mem_cons.1 hquiet
      have hports : s.ports = p := ports_of_hostInputs hs
      have hedge : step s = .next { s with hostInputs := ps, edge := s.edge + 1 } := by
        rw [step_of_idle (by rw [hports, hrst]) hph (by rw [hports, hst]), hs, List.tail_cons]
      have hlen : n ≤ ps.length := by simpa [hs] using hn
      have hrun := ih (s := { s with hostInputs := ps, edge := s.edge + 1 }) hph hlen hrest
      rw [(run_succ_next_iff n s _).2 ⟨_, hedge, hrun⟩]
      simp only [List.drop_succ_cons, Nat.add_assoc, Nat.add_comm 1 n]

/-- Settles O36: the step's meaning where it is enabled, and by induction on the edges that only time moves on. -/
theorem idleStep : Obligations.IdleStep := by
  unfold Obligations.IdleStep
  refine ⟨fun s hrst hph hst => exec_idle hrst hph hst, fun s t h => ?_, fun n s hph hn hquiet => ?_⟩
  · obtain ⟨-, hen, -⟩ := (exec_next_iff (by decide) s t).1 h
    exact (enables_idle_iff s).1 hen
  · exact ⟨_, run_of_idle hph hn hquiet, rfl, rfl, rfl⟩

/-! ### `START` (R160) -/

theorem exec_start {s : State} (hrst : s.ports.rst = false) (hph : s.ph = .idle) (hst : s.ports.start = true) :
    exec .start s = .next (startEffect s) :=
  (exec_next_iff (by decide) s _).2 ⟨reserved_eq_false_of_idle hph, (enables_start_iff s).2 ⟨hrst, hph, hst⟩, rfl⟩

theorem enabledSteps_of_start {s : State} (hrst : s.ports.rst = false) (hph : s.ph = .idle)
    (hst : s.ports.start = true) : s.enabledSteps = [.start] := by
  rw [enabledSteps_of_idle hrst hph, if_pos hst]

/-- Both agents begin: `START` clears the flags that hold them back (R160). -/
theorem enabledSet_startEffect {s : State} (hrst : s.ports.rst = false) :
    enabledSet (startEffect s) = .enabled [.ksLoad, .ipLoad] := by
  refine (enabledSet_eq_enabled_iff _ _).2 ⟨reserved_eq_false_of_prep rfl rfl rfl, ?_⟩
  simp [State.enabledSteps, phaseSteps, prepSteps, hrst]

/-- Settles O37: the step's meaning where it is enabled, its effect read off, and that no other step taken reads the
data ports. -/
theorem startStep : Obligations.StartStep := by
  unfold Obligations.StartStep
  refine ⟨fun s hrst hph hst => exec_start hrst hph hst, fun s t h => ?_, fun s t h => ?_,
    fun s p q ps hs hrst hst hstart => ?_⟩
  · obtain ⟨-, hen, -⟩ := (exec_next_iff (by decide) s t).1 h
    exact (enables_start_iff s).1 hen
  · obtain ⟨-, hen, rfl⟩ := (exec_next_iff (by decide) s t).1 h
    obtain ⟨hrst, -, -⟩ := (enables_start_iff s).1 hen
    exact ⟨rfl, rfl, rfl, rfl, enabledSet_startEffect hrst⟩
  · have hports : State.ports { s with hostInputs := q :: ps } = q := rfl
    refine step_hostInputs_congr hs hrst ?_ hstart
    rw [State.enabledSteps, State.enabledSteps, hports, ports_of_hostInputs hs, hrst, hst]

/-! ### `start` while busy (R166) -/

/-- Outside `IDLE` the request has no part in which steps are enabled. -/
theorem phaseSteps_congr_start {ph : Phase} (hph : ph ≠ .idle) (ksLd ksDone ipDone start start' : Bool) :
    phaseSteps ph ksLd ksDone ipDone start = phaseSteps ph ksLd ksDone ipDone start' := by
  cases ph
  case idle => exact absurd rfl hph
  all_goals rfl

/-- Settles O45: outside `IDLE` the request enables nothing, so the edge does not see it; `FINAL` moves to `IDLE`,
where it enables `START`. -/
theorem startWhileBusyIsIgnored : Obligations.StartWhileBusyIsIgnored := by
  unfold Obligations.StartWhileBusyIsIgnored
  refine ⟨fun s p q ps hph hs hp hq => ?_, fun s hph => start_not_mem_stepsTaken hph,
    fun s t hrst hph h htrst htst => ?_⟩
  · have hports : State.ports { s with hostInputs := q :: ps } = q := rfl
    refine step_hostInputs_congr hs (hq.trans hp.symm) ?_ (start_not_mem_stepsTaken hph)
    rw [State.enabledSteps, State.enabledSteps, hports, ports_of_hostInputs hs, hp, hq]
    exact phaseSteps_congr_start hph ..
  · have hidle : t.ph = .idle := by
      rw [ph_eq_nextPh_of_step h, State.nextPh, hrst, hph]
      rfl
    have hres : t.reserved = false := reserved_eq_false_of_idle hidle
    have hen : t.enabledSteps = [.start] := enabledSteps_of_start htrst hidle htst
    exact ⟨_, step_of_enabledSteps hres hen, stepsTaken_of_enabledSteps hres hen, rfl, rfl, rfl⟩

end Sys2Proof.Machine
end

section
/-! The invariant of R37 (spec/10_state.md), step by step: what each step does to a consistent state, and so that every
reachable state is consistent. -/

namespace Sys2Proof.Machine

/-! ### The rotations of the key schedule come full circle (R101, R121) -/

/-- How far the first `n` passes have rotated the two halves. -/
def totalShift : Nat → Nat
  | 0 => 0
  | n + 1 => totalShift n + shiftAmount (Fin.ofNat 16 n)

theorem keyPasses_halves (key : Block) (n : Nat) :
    (keyPasses key n).1 = rotl (ksInit key).1 (totalShift n) ∧
    (keyPasses key n).2.1 = rotl (ksInit key).2 (totalShift n) := by
  induction n with
  | zero => exact ⟨(rotl_zero _).symm, (rotl_zero _).symm⟩
  | succ n ih =>
    obtain ⟨hc, hd⟩ := ih
    rw [totalShift, ← rotl_rotl, ← rotl_rotl, ← hc, ← hd]
    exact ⟨rfl, rfl⟩

/-- Sixteen passes rotate by 28, the width of a half. -/
theorem keyPasses_sixteen_halves (key : Block) :
    ((keyPasses key 16).1, (keyPasses key 16).2.1) = ksInit key := by
  have hfull : totalShift 16 = 28 := by decide
  obtain ⟨hc, hd⟩ := keyPasses_halves key 16
  rw [hc, hd, hfull, rotl_width, rotl_width]

/-! ### Clauses that hold by the phase or by `DONE` alone -/

section Clauses
variable {s : State}

theorem busyNotDone_of_not_done (h : s.done = false) : BusyNotDone s :=
  ⟨fun _ => h, fun ⟨_, hdone⟩ => Bool.false_ne_true (h.symm.trans hdone)⟩

theorem busyNotDone_of_idle (h : s.ph = .idle) : BusyNotDone s :=
  ⟨fun hne => absurd h hne, fun ⟨hbusy, _⟩ => s.busy_eq_true_iff.1 hbusy h⟩

theorem resultWhenDone_of_not_done (h : s.done = false) : ResultWhenDone s := fun hdone =>
  absurd (h.symm.trans hdone) Bool.false_ne_true

/-- In `PREP` the clauses on the rounds and on the result say nothing; the others remain. -/
theorem consistent_of_prep (hph : s.ph = .prep) (hdone : s.done = false) (hflags : PrepFlags s)
    (hkeys : KeysSoFar s) (hkeysDone : KeysWhenDone s) (hblock : BlockWhenDone s) : Consistent s where
  prepFlags := hflags
  joinedResults := by simp [JoinedResults, hph]
  roundsSoFar := by simp [RoundsSoFar, hph]
  busyNotDone := busyNotDone_of_not_done hdone
  resultWhenDone := resultWhenDone_of_not_done hdone
  keysSoFar := hkeys
  keysWhenDone := hkeysDone
  blockWhenDone := hblock
  roundsWhenDone := by simp [RoundsWhenDone, hph]

/-- In `IDLE` only the clauses on the keys and on the result remain. -/
theorem consistent_of_idle (hph : s.ph = .idle) (hresult : s.done = true → s.dout = encryptBlock s.dinr s.keyr)
    (hkeys : KeysSoFar s) (hkeysDone : KeysWhenDone s) : Consistent s where
  prepFlags := by simp [PrepFlags, hph]
  joinedResults := by simp [JoinedResults, hph]
  roundsSoFar := by simp [RoundsSoFar, hph]
  busyNotDone := busyNotDone_of_idle hph
  resultWhenDone := fun hdone => ⟨hph, hresult hdone⟩
  keysSoFar := hkeys
  keysWhenDone := hkeysDone
  blockWhenDone := by simp [BlockWhenDone, hph]
  roundsWhenDone := by simp [RoundsWhenDone, hph]

end Clauses

theorem consistent_resetEffect (s : State) : Consistent (resetEffect s) :=
  consistent_of_idle rfl (by simp) (by simp [KeysSoFar]) (by simp [KeysWhenDone])

theorem consistent_startEffect (s : State) : Consistent (startEffect s) :=
  consistent_of_prep rfl rfl (by simp [PrepFlags]) (by simp [KeysSoFar]) (by simp [KeysWhenDone])
    (by simp [BlockWhenDone])

theorem counterIndex_eq (x : BitVec 4) : counterIndex x = Fin.ofNat 16 x.toNat :=
  Fin.ext (Nat.mod_eq_of_lt x.isLt).symm

theorem eq_of_readRk_eq {rk rk' : RoundKeys} (h : ∀ j, readRk rk j = readRk rk' j) : rk = rk' :=
  Vector.ext fun i hi => h ⟨i, hi⟩

namespace Consistent
variable {s : State} (hs : Consistent s)
include hs

/-! ### The steps of `PREP` (R123, R124, R152) -/

theorem ksLoad (hph : s.ph = .prep) (hdone : s.done = false) (hld : s.ksLd = false) (hkd : s.ksDone = false) :
    Consistent (ksLoadEffect s) := by
  have hki : s.ki = 0 := (hs.prepFlags hph).2 hld
  refine consistent_of_prep hph hdone (by simp [PrepFlags]) ?_ (by simp [KeysWhenDone, hkd]) hs.blockWhenDone
  simp [KeysSoFar, hki, keyPasses]

section KsRound
variable (hld : s.ksLd = true) (hkd : s.ksDone = false)
include hld hkd

/-- The pass a `KS_ROUND` makes is pass `KI` of the key schedule. -/
theorem ksNext_eq : ksNext s.c s.d (counterIndex s.ki) =
    ((keyPasses s.keyr (s.ki.toNat + 1)).1, (keyPasses s.keyr (s.ki.toNat + 1)).2.1,
      readRk (deriveRoundKeys s.keyr) (counterIndex s.ki)) := by
  obtain ⟨hhalves, -⟩ := hs.keysSoFar hld hkd
  obtain ⟨hc, hd⟩ := Prod.mk.inj hhalves
  rw [hc, hd]
  exact ksNext_keyPasses s.keyr (counterIndex s.ki)

theorem readRk_ksRound {j : Fin 16} (hj : j.val ≤ s.ki.toNat) :
    readRk (ksRoundEffect s).rk j = readRk (deriveRoundKeys s.keyr) j := by
  rw [readRk_ksRoundEffect, hs.ksNext_eq hld hkd]
  split_ifs with h
  · rw [show counterIndex s.ki = j from Fin.ext h.symm]
  · obtain ⟨-, hkeys⟩ := hs.keysSoFar hld hkd
    exact hkeys j (by omega)

theorem keysSoFar_ksRound : KeysSoFar (ksRoundEffect s) := by
  intro _ hnotDone
  have h15 : s.ki ≠ 15 := fun h => by simp [h] at hnotDone
  rw [ksRoundEffect_ki, toNat_countUp_of_ne h15]
  refine ⟨?_, fun j hj => hs.readRk_ksRound hld hkd (Nat.le_of_lt_succ hj)⟩
  simp [hs.ksNext_eq hld hkd]

theorem keysWhenDone_ksRound : KeysWhenDone (ksRoundEffect s) := by
  intro hlast
  have h15 : s.ki = 15 := by simpa [hkd] using hlast
  refine ⟨eq_of_readRk_eq fun j => hs.readRk_ksRound hld hkd ?_, by simp [h15], ?_⟩
  · exact h15 ▸ Nat.le_of_lt_succ j.isLt
  · have hnext := hs.ksNext_eq hld hkd
    rw [ksRoundEffect_c, ksRoundEffect_d, hnext, h15]
    exact keyPasses_sixteen_halves s.keyr

theorem ksRound (hph : s.ph = .prep) (hdone : s.done = false) : Consistent (ksRoundEffect s) :=
  consistent_of_prep hph hdone (by simp [PrepFlags, hld]) (hs.keysSoFar_ksRound hld hkd)
    (hs.keysWhenDone_ksRound hld hkd) hs.blockWhenDone

end KsRound

theorem ipLoad (hph : s.ph = .prep) (hdone : s.done = false) : Consistent (ipLoadEffect s) :=
  consistent_of_prep hph hdone hs.prepFlags hs.keysSoFar hs.keysWhenDone fun _ _ => rfl

/-! ### The steps of the rounds (R162 to R164) -/

theorem join (hph : s.ph = .prep) (hdone : s.done = false) (hld : s.ksLd = true) (hkd : s.ksDone = true)
    (hip : s.ipDone = true) : Consistent (joinEffect s) where
  prepFlags := by simp [PrepFlags]
  joinedResults := fun _ => ⟨hld, hkd, hip, (hs.keysWhenDone hkd).1⟩
  roundsSoFar := fun _ => hs.blockWhenDone hph hip
  busyNotDone := busyNotDone_of_not_done hdone
  resultWhenDone := resultWhenDone_of_not_done hdone
  keysSoFar := hs.keysSoFar
  keysWhenDone := hs.keysWhenDone
  blockWhenDone := by simp [BlockWhenDone]
  roundsWhenDone := by simp [RoundsWhenDone]

/-- Round `RI` takes the halves one round further. -/
theorem halves_round (hph : s.ph = .rounds) :
    ((roundEffect s).l, (roundEffect s).r) =
      feistelRounds s.rk (split 32 (ipFn s.dinr)).1 (split 32 (ipFn s.dinr)).2 (s.ri.toNat + 1) := by
  obtain ⟨hl, hr⟩ := Prod.mk.inj (hs.roundsSoFar hph)
  rw [feistelRounds, ← hl, ← hr, ← counterIndex_eq]
  rfl

theorem round (hph : s.ph = .rounds) (hdone : s.done = false) : Consistent (roundEffect s) where
  prepFlags := by
    intro h
    by_cases h15 : s.ri = 15#4 <;> simp [hph, h15] at h
  joinedResults := fun _ => hs.joinedResults (.inl hph)
  roundsSoFar := by
    intro h
    have h15 : s.ri ≠ 15 := fun h15 => by simp [h15] at h
    rw [hs.halves_round hph, roundEffect_ri, toNat_countUp_of_ne h15]
    rfl
  busyNotDone := busyNotDone_of_not_done hdone
  resultWhenDone := resultWhenDone_of_not_done hdone
  keysSoFar := hs.keysSoFar
  keysWhenDone := hs.keysWhenDone
  blockWhenDone := by
    intro h
    by_cases h15 : s.ri = 15#4 <;> simp [hph, h15] at h
  roundsWhenDone := by
    intro h
    have h15 : s.ri = 15 := by simpa [hph] using h
    rw [hs.halves_round hph, h15]
    exact ⟨by simp [h15], rfl⟩

/-- In `FINAL` the halves are those after round 15, under the keys of `KEYR` (R163, R37 item 2). -/
theorem halves_of_final (hph : s.ph = .final) :
    (s.l, s.r) =
      feistelRounds (deriveRoundKeys s.keyr) (split 32 (ipFn s.dinr)).1 (split 32 (ipFn s.dinr)).2 16 := by
  obtain ⟨-, -, -, hrk⟩ := hs.joinedResults (.inr hph)
  obtain ⟨-, hhalves⟩ := hs.roundsWhenDone hph
  rw [hhalves, hrk]

theorem final (hph : s.ph = .final) : Consistent (finalEffect s) :=
  consistent_of_idle rfl (fun _ => finish_of_feistelRounds (hs.halves_of_final hph)) hs.keysSoFar hs.keysWhenDone

/-! ### The clock edge -/

/-- Time moving on changes no register the invariant speaks of. -/
theorem endEdge (is : List Instr) : Consistent (s.endEdge is) :=
  ⟨hs.prepFlags, hs.joinedResults, hs.roundsSoFar, hs.busyNotDone, hs.resultWhenDone, hs.keysSoFar, hs.keysWhenDone,
    hs.blockWhenDone, hs.roundsWhenDone⟩

/-- Every edge keeps the invariant: each step it takes does. -/
theorem step {t : State} (h : step s = .next t) : Consistent t := by
  obtain ⟨hes, rfl⟩ := step_cases h
  generalize stepsTaken s = is at hes ⊢
  refine endEdge ?_ _
  cases hes
  case reset => exact consistent_resetEffect s
  case idle => exact hs
  case start => exact consistent_startEffect s
  case ksLoad _ hph hdone hld hkd => exact hs.ksLoad hph hdone hld hkd
  case ksRound _ hph hdone hld hkd => exact hs.ksRound hld hkd hph hdone
  case ipLoad _ hph hdone _ => exact hs.ipLoad hph hdone
  case ksLoad_ipLoad _ hph hdone hld hkd _ => exact (hs.ksLoad hph hdone hld hkd).ipLoad hph hdone
  case ksRound_ipLoad _ hph hdone hld hkd _ => exact (hs.ksRound hld hkd hph hdone).ipLoad hph hdone
  case join _ hph hdone hld hkd hip => exact hs.join hph hdone hld hkd hip
  case round _ hph hdone _ _ _ => exact hs.round hph hdone
  case final _ hph _ _ _ _ => exact hs.final hph

end Consistent

theorem consistent_of_reachable {s : State} (hs : Reachable s) : Consistent s := by
  induction hs with
  | reset hrst h =>
    cases (step_of_rst hrst).symm.trans h
    exact (consistent_resetEffect _).endEdge _
  | edge _ h ih => exact ih.step h

end Sys2Proof.Machine
end

section
/-! Proofs about the steps of the agent `DRV` that take the two agents' results to the ciphertext
(spec/46_driver.md rules R162 to R164): what each writes, and how often a run takes `ROUND`. -/

namespace Sys2Proof.Machine

/-! ### `JOIN` (R162) -/

theorem exec_join {s : State} (hrst : s.ports.rst = false) (hph : s.ph = .prep) (hld : s.ksLd = true)
    (hkd : s.ksDone = true) (hip : s.ipDone = true) (hdone : s.done = false) :
    exec .join s = .next (joinEffect s) := by
  have hres : s.reserved = false := (s.reserved_eq_false_iff).2 (.inr (.inr ⟨hdone, .inl ⟨hph, fun _ => hld⟩⟩))
  exact (exec_next_iff (by decide) s _).2 ⟨hres, (enables_join_iff s).2 ⟨hrst, hph, hld, hkd, hip⟩, rfl⟩

theorem enabledSet_of_exec_join {s t : State} (h : exec .join s = .next t) : enabledSet s = .enabled [.join] := by
  obtain ⟨hres, hen, -⟩ := (exec_next_iff (by decide) s t).1 h
  obtain ⟨hrst, hph, -, hkd, hip⟩ := (enables_join_iff s).1 hen
  exact (enabledSet_eq_enabled_iff s _).2 ⟨hres, by simp [State.enabledSteps, phaseSteps, prepSteps, *]⟩

theorem stepsTaken_of_leaving_prep {s t : State} (h : step s = .next t) (hph : s.ph = .prep) (hne : t.ph ≠ .prep) :
    stepsTaken s = [.join] ∨ stepsTaken s = [.reset] := by
  obtain ⟨hes, rfl⟩ := step_cases h
  generalize stepsTaken s = is at hes hne ⊢
  cases hes
  case join => exact .inl rfl
  case reset => exact .inr rfl
  case ksLoad | ksRound | ipLoad | ksLoad_ipLoad | ksRound_ipLoad => exact absurd hph hne
  case idle hother _ | start hother _ | round hother _ _ _ _ | final hother _ _ _ _ =>
    exact absurd (hph.symm.trans hother) (by decide)

/-- Settles O41: the step's meaning where it is enabled; the edges that leave `PREP`; what the invariant says of a
state in which both agents have finished. -/
theorem joinStep : Obligations.JoinStep := by
  unfold Obligations.JoinStep
  refine ⟨fun s hrst hph hld hkd hip hdone => exec_join hrst hph hld hkd hip hdone, fun s t h => ?_,
    fun s t h => enabledSet_of_exec_join h, fun s hph => round_not_mem_stepsTaken (by simp [hph]),
    fun s t h hph hne => stepsTaken_of_leaving_prep h hph hne, fun s t hs h => ?_⟩
  · obtain ⟨-, hen, -⟩ := (exec_next_iff (by decide) s t).1 h
    exact (enables_join_iff s).1 hen
  · obtain ⟨-, hen, rfl⟩ := (exec_next_iff (by decide) s t).1 h
    obtain ⟨-, hph, -, hkd, hip⟩ := (enables_join_iff s).1 hen
    have hhalves : (s.l, s.r) = split 32 (ipFn s.dinr) := (consistent_of_reachable hs).blockWhenDone hph hip
    obtain ⟨hrk, -, -⟩ := (consistent_of_reachable hs).keysWhenDone hkd
    refine ⟨hhalves, hrk, fun hkey hblock => ?_⟩
    obtain ⟨-, -, hfirst, hlast⟩ := deriveRoundKeysRunsSixteenPasses
    have hexample : (s.l, s.r) = (0xCC00CCFF, 0xF0AAF0AA) := by
      rw [hhalves, show s.dinr = _ from hblock, ipFn_exampleBlock]
      decide
    obtain ⟨hl, hr⟩ := Prod.mk.inj hexample
    have hrkExample : s.rk = deriveRoundKeys 0x133457799BBCDFF1 := hrk.trans (congrArg _ hkey)
    exact ⟨hl, hr, hrkExample ▸ hfirst, hrkExample ▸ hlast⟩

/-! ### `ROUND` (R163) -/

theorem exec_round {s : State} (hrst : s.ports.rst = false) (hph : s.ph = .rounds) (hld : s.ksLd = true)
    (hkd : s.ksDone = true) (hip : s.ipDone = true) (hdone : s.done = false) :
    exec .round s = .next (roundEffect s) := by
  have hres : s.reserved = false :=
    (s.reserved_eq_false_iff).2 (.inr (.inr ⟨hdone, .inr ⟨.inl hph, hld, hkd, hip⟩⟩))
  exact (exec_next_iff (by decide) s _).2 ⟨hres, (enables_round_iff s).2 ⟨hrst, hph, hld, hkd, hip⟩, rfl⟩

/-- How many rounds a run has made, told by the phase and by `RI`, where `is` are the steps taken since the `START`. -/
structure RoundCounts (is : List Instr) (s : State) : Prop where
  prep : s.ph = .prep → is.count .round = 0
  rounds : s.ph = .rounds → is.count .round = s.ri.toNat
  complete : s.ph = .final ∨ s.ph = .idle → is.count .round = 16
  idle_of_final : .final ∈ is → s.ph = .idle

/-- `START` enters `PREP`. -/
theorem roundCounts_start (s t : State) (hs : stepsTaken s = [.start]) (h : step s = .next t) :
    RoundCounts [.start] t := by
  obtain ⟨-, rfl⟩ := step_cases h
  rw [hs]
  constructor <;> simp

theorem RoundCounts.edge {is : List Instr} {s t : State} (hc : RoundCounts is s) (h : step s = .next t)
    (hstart : .start ∉ stepsTaken s) (hreset : .reset ∉ stepsTaken s) : RoundCounts (is ++ stepsTaken s) t := by
  obtain ⟨hprep, hrounds, hcomplete, hfinal⟩ := hc
  have hnotFinal : s.ph ≠ .idle → .final ∉ is := fun hph hf => hph (hfinal hf)
  obtain ⟨hes, rfl⟩ := step_cases h
  generalize stepsTaken s = js at hes hstart hreset ⊢
  cases hes
  case start => simp at hstart
  case reset => simp at hreset
  case round =>
    -- the sixteenth round moves to `FINAL` instead of counting on
    by_cases h15 : s.ri = 15#4
    · constructor <;> simp [*]
    · constructor <;> simp [*, toNat_countUp_of_ne h15]
  all_goals constructor <;> simp [*]

theorem InRun.roundCounts {k : Nat} {s u : State} (h : InRun (k + 1) s u) :
    RoundCounts (trace (k + 1) s).flatten u :=
  h.induction roundCounts_start fun hc => hc.edge

/-- Settles O42: the step's meaning where it is enabled, round 0 of the example, and `RI` as the count of rounds until
the sixteenth moves to `FINAL`. -/
theorem roundStep : Obligations.RoundStep := by
  unfold Obligations.RoundStep
  refine ⟨fun s hrst hph hld hkd hip hdone => ?_, fun s t h => ?_, fun s t h hl hr hri hkey => ?_, fun k s u h => ?_⟩
  · rw [exec_round hrst hph hld hkd hip hdone]
    by_cases h15 : s.ri = 15#4 <;> simp [roundEffect, roundFn_eq, countUp, hph, h15]
  · obtain ⟨-, hen, -⟩ := (exec_next_iff (by decide) s t).1 h
    obtain ⟨hrst, hph, -⟩ := (enables_round_iff s).1 hen
    exact ⟨hrst, hph⟩
  · obtain ⟨-, -, rfl⟩ := (exec_next_iff (by decide) s t).1 h
    obtain ⟨-, -, hexample⟩ := roundFnCrossesOver
    have hround : roundFn s.l s.r (readRk s.rk (counterIndex s.ri)) = (0xF0AAF0AA, 0xEF4A6544) := by
      rw [hl, hr, hri, show readRk s.rk (counterIndex 0) = _ from hkey, hexample]
    rw [stepEffect, roundEffect_l, roundEffect_r, hround, roundEffect_ri, hri]
    exact ⟨rfl, rfl, rfl⟩
  · cases k with
    | zero => simp [h.stepsTaken_of_zero, trace]
    | succ k =>
      have hc := h.roundCounts
      refine ⟨fun hround => ?_, fun hfinal => hc.complete (.inr (hc.idle_of_final hfinal))⟩
      exact (hc.rounds ((enables_round_iff u).1 (enables_of_mem_stepsTaken hround)).2.1).symm

/-! ### `FINAL` (R164) -/

theorem exec_final {s : State} (hrst : s.ports.rst = false) (hph : s.ph = .final) (hld : s.ksLd = true)
    (hkd : s.ksDone = true) (hip : s.ipDone = true) (hdone : s.done = false) :
    exec .final s = .next (finalEffect s) := by
  have hres : s.reserved = false :=
    (s.reserved_eq_false_iff).2 (.inr (.inr ⟨hdone, .inr ⟨.inr hph, hld, hkd, hip⟩⟩))
  exact (exec_next_iff (by decide) s _).2 ⟨hres, (enables_final_iff s).2 ⟨hrst, hph, hld, hkd, hip⟩, rfl⟩

/-- The halves of the source's known answer, after round 15. -/
theorem finish_example : finish 0x43423234 0x0A4CD995 = 0x85E813540F0AB405 := by decide +kernel

/-- Settles O43: the step's meaning where it is enabled, with the right half first; the halves it finds are those of
the invariant. -/
theorem finalStep : Obligations.FinalStep := by
  unfold Obligations.FinalStep
  refine ⟨fun s hrst hph hld hkd hip hdone => exec_final hrst hph hld hkd hip hdone, fun s t h => ?_, fun s t h => ?_,
    fun s t h hl hr => ?_, fun s hs hph => (consistent_of_reachable hs).halves_of_final hph, by decide +kernel⟩
  · obtain ⟨-, hen, -⟩ := (exec_next_iff (by decide) s t).1 h
    obtain ⟨hrst, hph, -⟩ := (enables_final_iff s).1 hen
    exact ⟨hrst, hph⟩
  · obtain ⟨-, -, rfl⟩ := (exec_next_iff (by decide) s t).1 h
    exact ⟨rfl, rfl, rfl⟩
  · obtain ⟨-, -, rfl⟩ := (exec_next_iff (by decide) s t).1 h
    rw [stepEffect, finalEffect_dout, hl, hr, finish_example]

end Sys2Proof.Machine
end

section
/-! Proofs about events at one edge and exceptions (spec/60_exceptions.md rules R183, R186): the order of `rst` and
`start`, and that no run from a `RESET` meets a fault. -/

namespace Sys2Proof.Machine

/-! ### Priority of simultaneous events (R186) -/

theorem stepsTaken_of_rst {s : State} (hrst : s.ports.rst = true) : stepsTaken s = [.reset] :=
  stepsTaken_of_enabledSteps ((s.reserved_eq_false_iff).2 (.inl hrst)) (by rw [State.enabledSteps, if_pos hrst])

theorem stepsTaken_of_start {s : State} (hrst : s.ports.rst = false) (hph : s.ph = .idle)
    (hst : s.ports.start = true) : stepsTaken s = [.start] :=
  stepsTaken_of_enabledSteps (reserved_eq_false_of_idle hph) (enabledSteps_of_start hrst hph hst)

/-- An edge's steps, told by whether the control state is reserved and by the steps it enables. -/
theorem stepsTaken_eq (s : State) : stepsTaken s = if s.reserved then [] else chooseSteps s.choice s.enabledSteps := by
  cases hres : s.reserved with
  | true => simp [stepsTaken, enabledSet, hres]
  | false => exact stepsTaken_of_enabledSet ((enabledSet_eq_enabled_iff s _).2 ⟨hres, rfl⟩)

/-- Outside `IDLE` the steps taken depend on the port sample only through `rst`. -/
theorem stepsTaken_hostInputs_congr {s : State} {p q : Ports} {ps : List Ports} (hs : s.hostInputs = p :: ps)
    (hph : s.ph ≠ .idle) (hrst : q.rst = p.rst) : stepsTaken { s with hostInputs := q :: ps } = stepsTaken s := by
  have hports : State.ports { s with hostInputs := q :: ps } = q := rfl
  have hchoice : State.choice { s with hostInputs := q :: ps } = s.choice := rfl
  have hres : State.reserved { s with hostInputs := q :: ps } = s.reserved := by
    rw [Bool.eq_iff_iff, State.reserved_iff, State.reserved_iff, hports, ports_of_hostInputs hs, hrst]
  have hen : State.enabledSteps { s with hostInputs := q :: ps } = s.enabledSteps := by
    rw [State.enabledSteps, State.enabledSteps, hports, ports_of_hostInputs hs, hrst,
      phaseSteps_congr_start hph _ _ _ q.start p.start]
  rw [stepsTaken_eq, stepsTaken_eq, hres, hen, hchoice]

/-- Settles O46: `rst` enables `RESET` alone, a request in `IDLE` enables `START` alone, and outside `IDLE` neither the
steps taken nor the edge see the request. -/
theorem resetBeatsStart : Obligations.ResetBeatsStart := by
  unfold Obligations.ResetBeatsStart
  refine ⟨fun s hrst => stepsTaken_of_rst hrst, fun s hrst hst hph => stepsTaken_of_start hrst hph hst,
    fun s p ps hs hrst _ hph => ?_⟩
  obtain ⟨hignored, -, -⟩ := startWhileBusyIsIgnored
  exact ⟨(stepsTaken_hostInputs_congr (q := { p with start := false }) hs hph rfl).symm,
    (hignored s p { p with start := false } ps hph hs hrst hrst).symm⟩

/-! ### No run-time exception (R183) -/

namespace Consistent
variable {s : State} (hs : Consistent s)
include hs

/-- The invariant has in each phase the flags that R74 asks for, whatever the ports carry. -/
theorem reserved_eq_false : s.reserved = false := by
  obtain ⟨hbusy, -⟩ := hs.busyNotDone
  refine (s.reserved_eq_false_iff).2 (.inr ?_)
  cases hph : s.ph with
  | idle => exact .inl rfl
  | prep =>
    obtain ⟨hld, -⟩ := hs.prepFlags hph
    exact .inr ⟨hbusy (by simp [hph]), .inl ⟨rfl, hld⟩⟩
  | rounds =>
    obtain ⟨hld, hkd, hip, -⟩ := hs.joinedResults (.inl hph)
    exact .inr ⟨hbusy (by simp [hph]), .inr ⟨.inl rfl, hld, hkd, hip⟩⟩
  | final =>
    obtain ⟨hld, hkd, hip, -⟩ := hs.joinedResults (.inr hph)
    exact .inr ⟨hbusy (by simp [hph]), .inr ⟨.inr rfl, hld, hkd, hip⟩⟩

/-- What the host drives and the schedule chooses is no part of the invariant. -/
theorem with_hostInputs_schedule (inputs : List Ports) (choices : List SchedChoice) :
    Consistent { s with hostInputs := inputs, schedule := choices } :=
  ⟨hs.prepFlags, hs.joinedResults, hs.roundsSoFar, hs.busyNotDone, hs.resultWhenDone, hs.keysSoFar, hs.keysWhenDone,
    hs.blockWhenDone, hs.roundsWhenDone⟩

end Consistent

/-- Settles O56: a reachable state meets the invariant, under every port list and schedule, so it is not reserved, and
there the edge and each enabled step complete. -/
theorem noRuntimeException : Obligations.NoRuntimeException := by
  unfold Obligations.NoRuntimeException
  intro s inputs choices hs
  have hres : State.reserved { s with hostInputs := inputs, schedule := choices } = false :=
    ((consistent_of_reachable hs).with_hostInputs_schedule inputs choices).reserved_eq_false
  exact ⟨⟨_, step_of_not_reserved hres⟩, _, (enabledSet_eq_enabled_iff _ _).2 ⟨hres, rfl⟩,
    fun i hi => ⟨_, exec_of_mem_enabledSteps hres hi⟩⟩

end Sys2Proof.Machine
end

section
/-! Proofs about `RESET` (spec/70_reset_and_hazards.md rules R200, R201): it is enabled at an edge where `rst = 1` and at
no other, and holding `rst = 1` ends with a `RESET` from some state. -/

namespace Sys2Proof.Machine

/-! ### `RESET` (R200) -/

theorem enables_mkSel_reset (rst : Bool) (ph : Phase) (ld kd ip st : Bool) :
    enables (mkSel rst ph.code ld kd ip st) .reset = rst := by
  revert rst ld kd ip st; cases ph <;> decide

theorem enables_reset_iff (s : State) : enables s.sel .reset = true ↔ s.ports.rst = true :=
  Bool.eq_iff_iff.1 (enables_mkSel_reset ..)

theorem reserved_eq_false_of_rst {s : State} (hrst : s.ports.rst = true) : s.reserved = false :=
  (s.reserved_eq_false_iff).2 (.inl hrst)

theorem exec_reset {s : State} (hrst : s.ports.rst = true) : exec .reset s = .next (resetEffect s) :=
  (exec_next_iff (by decide) s _).2 ⟨reserved_eq_false_of_rst hrst, (enables_reset_iff s).2 hrst, rfl⟩

theorem enabledSet_of_rst {s : State} (hrst : s.ports.rst = true) : enabledSet s = .enabled [.reset] :=
  (enabledSet_eq_enabled_iff s _).2 ⟨reserved_eq_false_of_rst hrst, by rw [State.enabledSteps, if_pos hrst]⟩

/-- Settles O34: with `rst = 1` no state is reserved and `RESET` alone is enabled; its select word needs `rst = 1`. -/
theorem resetStep : Obligations.ResetStep := by
  unfold Obligations.ResetStep
  refine fun s => ⟨fun hrst => ?_, fun hrst t h => ?_⟩
  · exact ⟨_, exec_reset hrst, enabledSet_of_rst hrst, rfl, rfl, rfl, rfl, rfl, rfl, rfl, rfl, rfl, rfl, rfl, rfl, rfl,
      rfl⟩
  · obtain ⟨-, hen, -⟩ := (exec_next_iff (by decide) s t).1 h
    exact Bool.false_ne_true (hrst.symm.trans ((enables_reset_iff s).1 hen))

/-! ### Holding `rst` (R201) -/

theorem rst_of_forall_take {n : Nat} {s : State} (hn : n + 1 ≤ s.hostInputs.length)
    (hheld : ∀ p ∈ s.hostInputs.take (n + 1), p.rst = true) : s.ports.rst = true := by
  cases hs : s.hostInputs with
  | nil => simp [hs] at hn
  | cons p ps =>
    rw [ports_of_hostInputs hs]
    exact hheld p (by rw [hs, List.take_succ_cons]; exact List.mem_cons_self)

/-- The last edge with `rst = 1` is a `RESET` like the first, from whatever state the edges before it left. -/
theorem run_of_rst {n : Nat} {s : State} (hn : n + 1 ≤ s.hostInputs.length)
    (hheld : ∀ p ∈ s.hostInputs.take (n + 1), p.rst = true) :
    ∃ u : State, u.hostInputs = s.hostInputs.drop n ∧
      Host.Core.run core (n + 1) s = .next ((resetEffect u).endEdge [.reset]) := by
  induction n generalizing s with
  | zero => exact ⟨s, rfl, (run_succ_next_iff 0 s _).2 ⟨_, step_of_rst (rst_of_forall_take hn hheld), rfl⟩⟩
  | succ n ih =>
    have hlen : n + 1 ≤ s.hostInputs.tail.length := by rw [List.length_tail]; omega
    have hrest : ∀ p ∈ s.hostInputs.tail.take (n + 1), p.rst = true := fun p hp =>
      hheld p (List.mem_of_mem_tail (by rwa [List.tail_take_eq_take_tail]))
    obtain ⟨u, hu, hrun⟩ := ih (s := (resetEffect s).endEdge [.reset]) hlen hrest
    exact ⟨u, hu.trans List.drop_tail, (run_succ_next_iff (n + 1) s _).2
      ⟨_, step_of_rst (rst_of_forall_take hn hheld), hrun⟩⟩

/-- Settles O35: the run ends with a `RESET`, which clears the control state whatever it finds. -/
theorem holdingResetGivesTheResetState : Obligations.HoldingResetGivesTheResetState := by
  unfold Obligations.HoldingResetGivesTheResetState
  intro n s hn hheld
  obtain ⟨u, hu, hrun⟩ := run_of_rst hn hheld
  refine ⟨_, hrun, rfl, rfl, rfl, rfl, rfl, rfl, rfl, ?_⟩
  rw [State.endEdge_hostInputs, resetEffect_hostInputs, hu, List.tail_drop]

end Sys2Proof.Machine
end

section
/-! Proofs about decoding and encoding (spec/30_encoding.md rules R70 to R73): a word matches a row exactly where it is
one of the row's encodings. -/

namespace Sys2Proof.Machine

/-! ### The rows of the step table (R70, R72) -/

/-- Only the steps have a row. -/
theorem encodeWith_eq_none_iff (i : Instr) (fill : BitVec 7) : encodeWith fill i = none ↔ i.agent = none := by
  cases i <;> simp [encodeWith, Instr.selPattern, Instr.agent]

/-- A row's match value has no bit outside its mask. -/
theorem pat_and_mask {i : Instr} {mask pat : BitVec 7} (h : i.selPattern = some (mask, pat)) : pat &&& mask = pat := by
  cases i
  case reset | idle | start | ksLoad | ksRound | ipLoad | join | round | final => cases h; rfl
  all_goals cases h

theorem encodeWith_of_selPattern {i : Instr} {mask pat : BitVec 7} (h : i.selPattern = some (mask, pat))
    (fill : BitVec 7) : encodeWith fill i = some (pat ||| (fill &&& ~~~mask)) := by
  simp [encodeWith, h]

/-- The don't-care bits lie outside the mask, so an encoding matches its row whatever they are. -/
theorem enables_of_encodeWith {i : Instr} {fill w : BitVec 7} (h : encodeWith fill i = some w) :
    enables w i = true := by
  cases hrow : i.selPattern with
  | none => simp [encodeWith, hrow] at h
  | some row =>
    obtain ⟨mask, pat⟩ := row
    rw [encodeWith_of_selPattern hrow, Option.some_inj] at h
    have hcancel : fill &&& ~~~mask &&& mask = 0#7 := by rw [BitVec.and_assoc]; simp
    rw [enables_iff_of_selPattern hrow, ← h, BitVec.and_or_distrib_right, hcancel, pat_and_mask hrow, BitVec.or_zero]

/-- A word that matches a row is the row's encoding with the word's own bits as the don't-care bits. -/
theorem encodeWith_self {i : Instr} {w : BitVec 7} (h : enables w i = true) : encodeWith w i = some w := by
  cases hrow : i.selPattern with
  | none => simp [enables, hrow] at h
  | some row =>
    obtain ⟨mask, pat⟩ := row
    rw [encodeWith_of_selPattern hrow, ← (enables_iff_of_selPattern hrow w).1 h, ← BitVec.and_or_distrib_left,
      BitVec.or_not_self, BitVec.and_allOnes]

/-! ### Decoding (R73) -/

theorem decode_eq_enabled_iff (w : BitVec 7) (is : List Instr) :
    decode w = .enabled is ↔ reservedSel w = false ∧ is = stepRows.filter (enables w) := by
  unfold decode
  cases reservedSel w <;> simp [eq_comm]

/-- Settles O4: a word that is not reserved decodes to the rows it matches, and it matches a row exactly where some
don't-care bits make it the row's encoding. -/
theorem decodeEncodeAgree : Obligations.DecodeEncodeAgree := by
  unfold Obligations.DecodeEncodeAgree
  refine ⟨fun i fill w h hres => ?_, fun w is h => ?_, encodeWith_eq_none_iff, fun w hw => ?_⟩
  · have hen : enables w i = true := enables_of_encodeWith h
    exact ⟨_, (decode_eq_enabled_iff w _).2 ⟨hres, rfl⟩, List.mem_filter.2 ⟨mem_stepRows_of_enables hen, hen⟩⟩
  · obtain ⟨hres, rfl⟩ := (decode_eq_enabled_iff w is).1 h
    exact ⟨hres, fun i hi => ⟨w, encodeWith_self (List.mem_filter.1 hi).2⟩⟩
  · rw [decodeWord, if_neg (by omega)]

/-- Settles O5: each word is decoded by evaluation. -/
theorem listedSelectWordsDecode : Obligations.ListedSelectWordsDecode := by
  unfold Obligations.ListedSelectWordsDecode
  decide

end Sys2Proof.Machine
end

section
/-! Proofs about the enabled set and the steps taken from it (spec/30_encoding.md rules R72, R73;
spec/70_reset_and_hazards.md rule R211). -/

namespace Sys2Proof.Machine

/-! ### The enabled set -/

/-- Every phase enables some step, and each agent at most one. -/
theorem phaseSteps_agents (ph : Phase) (ld kd ip st : Bool) :
    phaseSteps ph ld kd ip st ≠ [] ∧ (phaseSteps ph ld kd ip st).Pairwise fun i j => i.agent ≠ j.agent := by
  revert ld kd ip st; cases ph <;> decide

theorem enabledSteps_agents (s : State) :
    s.enabledSteps ≠ [] ∧ s.enabledSteps.Pairwise fun i j => i.agent ≠ j.agent := by
  unfold State.enabledSteps
  split_ifs
  · decide
  · exact phaseSteps_agents ..

theorem enabledSet_of_not_reserved {s : State} (hres : s.reserved = false) : enabledSet s = .enabled s.enabledSteps :=
  (enabledSet_eq_enabled_iff s _).2 ⟨hres, rfl⟩

theorem enabledSteps_of_not_rst {s : State} (hrst : s.ports.rst = false) :
    s.enabledSteps = phaseSteps s.ph s.ksLd s.ksDone s.ipDone s.ports.start := by
  simp [State.enabledSteps, hrst]

theorem enabledSteps_of_prep {s : State} (hrst : s.ports.rst = false) (hph : s.ph = .prep) :
    s.enabledSteps = prepSteps s.ksLd s.ksDone s.ipDone := by
  rw [enabledSteps_of_not_rst hrst, hph, phaseSteps]

/-- What R74 leaves of `PREP`. -/
theorem flags_of_prep {s : State} (hres : s.reserved = false) (hrst : s.ports.rst = false) (hph : s.ph = .prep) :
    s.done = false ∧ (s.ksDone = true → s.ksLd = true) := by
  simpa [State.reserved_eq_false_iff, hrst, hph] using hres

/-- Settles O2: the table is the list of steps by phase and flags, and a reachable state is not reserved. -/
theorem enabledSets : Obligations.EnabledSets := by
  unfold Obligations.EnabledSets
  refine ⟨fun s hres => ?_, fun s is h => ?_, fun s hs => reserved_eq_false_of_reachable hs⟩
  · rw [enabledSet_of_not_reserved hres]
    refine ⟨fun hrst => by simp [State.enabledSteps, hrst], fun hrst => ?_⟩
    rw [enabledSteps_of_not_rst hrst]
    refine ⟨?_, ?_, ?_, ?_, ?_⟩ <;> intro hph
    case refine_5 =>
      have hnotDone : s.ksLd = false → s.ksDone = false := by simpa using mt (flags_of_prep hres hrst hph).2
      rw [hph, phaseSteps]
      simp +contextual [prepSteps, hnotDone]
    all_goals simp +contextual [hph, phaseSteps]
  · obtain ⟨-, rfl⟩ := (enabledSet_eq_enabled_iff s is).1 h
    exact enabledSteps_agents s

/-- Settles O44: outside the reserved states a step completes or is refused as its row says, and the enabled set holds
the steps whose rows match. -/
theorem stepsOutsideTheEnabledSetAreRefused : Obligations.StepsOutsideTheEnabledSetAreRefused := by
  unfold Obligations.StepsOutsideTheEnabledSetAreRefused
  intro i s is hi hen
  obtain ⟨hres, -⟩ := (enabledSet_eq_enabled_iff s is).1 hen
  rw [exec_eq_performStep hi, mem_enabledSet_iff hen]
  obtain ⟨hreserved, -⟩ | ⟨-, hmatch, hexec⟩ | ⟨-, hmatch, hexec⟩ := performStep_cases i (stepEffect i) s
  · exact absurd (hres.symm.trans hreserved) Bool.false_ne_true
  · exact ⟨fun _ => ⟨_, hexec⟩, fun hnot => absurd hmatch hnot⟩
  · exact ⟨fun h => absurd (hmatch.symm.trans h) Bool.false_ne_true, fun _ => hexec⟩

/-! ### One edge runs the chosen steps -/

theorem step_of_runSteps {s t : State} {is : List Instr} (hen : enabledSet s = .enabled is)
    (hrun : runSteps (chooseSteps s.choice is) s = .next t) : step s = .next (t.endEdge is) :=
  (clockEdge_next_iff s _).2 ⟨is, t, hen, hrun, rfl⟩

theorem runSteps_singleton {i : Instr} {s t : State} (h : exec i s = .next t) : runSteps [i] s = .next t :=
  (runSteps_cons_next_iff ..).2 ⟨t, h, rfl⟩

/-- Settles O6: the edge runs what the schedule takes of the decoded set, then moves time on. -/
theorem stepRunsTheDecodedSteps : Obligations.StepRunsTheDecodedSteps := by
  unfold Obligations.StepRunsTheDecodedSteps
  refine ⟨fun s hres => by simp [enabledSet, hres], fun s t i hen h => ?_, fun s t k p hen hx h => ?_,
    fun s t k p hen hx h => ?_, fun s t u k p hen hx hk hp => ?_⟩
  · exact step_of_runSteps hen (runSteps_singleton h)
  · exact step_of_runSteps hen (by rw [hx]; exact runSteps_singleton h)
  · exact step_of_runSteps hen (by rw [hx]; exact runSteps_singleton h)
  · exact step_of_runSteps hen (by rw [hx]; exact (runSteps_cons_next_iff ..).2 ⟨t, hk, runSteps_singleton hp⟩)

/-! ### Two steps at one edge (R211) -/

/-- A set of two is `PREP`'s, while neither agent has finished: the `KS` step and `IP_LOAD`. -/
theorem enabledSteps_pair {s : State} {k p : Instr} (h : s.enabledSteps = [k, p]) :
    s.ports.rst = false ∧ s.ph = .prep ∧ s.ksDone = false ∧ s.ipDone = false ∧
      (k = if s.ksLd then .ksRound else .ksLoad) ∧ p = .ipLoad := by
  have hphase : ∀ (ph : Phase) (ld kd ip st : Bool), phaseSteps ph ld kd ip st = [k, p] →
      ph = .prep ∧ kd = false ∧ ip = false ∧ (k = if ld then .ksRound else .ksLoad) ∧ p = .ipLoad := by
    intro ph ld kd ip st
    cases ph <;> cases st <;> cases ld <;> cases kd <;> cases ip <;> simp [phaseSteps, prepSteps, eq_comm]
  cases hrst : s.ports.rst with
  | true => simp [State.enabledSteps, hrst] at h
  | false => exact ⟨rfl, hphase _ _ _ _ _ (enabledSteps_of_not_rst hrst ▸ h)⟩

/-- Settles O7: neither agent's step writes a register or flag that the other reads, so each finds what it needs before
and after the other, and the two effects commute. -/
theorem bothAtOnceEqualsEitherOrder : Obligations.BothAtOnceEqualsEitherOrder := by
  unfold Obligations.BothAtOnceEqualsEitherOrder
  intro s k p hen
  obtain ⟨hres, hsteps⟩ := (enabledSet_eq_enabled_iff s _).1 hen
  obtain ⟨hrst, hph, hkd, hip, rfl, rfl⟩ := enabledSteps_pair hsteps.symm
  obtain ⟨hdone, -⟩ := flags_of_prep hres hrst hph
  cases hld : s.ksLd with
  | false =>
    exact ⟨ksLoadEffect s, ipLoadEffect s, ipLoadEffect (ksLoadEffect s), exec_ksLoad hrst hph hkd hdone hld,
      exec_ipLoad hrst hph hip (by simp [hkd]) hdone, exec_ipLoad hrst hph hip (fun _ => rfl) hdone,
      exec_ksLoad (s := ipLoadEffect s) hrst hph hkd hdone hld, rfl⟩
  | true =>
    exact ⟨ksRoundEffect s, ipLoadEffect s, ipLoadEffect (ksRoundEffect s), exec_ksRound hrst hph hkd hdone hld,
      exec_ipLoad hrst hph hip (by simp [hkd]) hdone, exec_ipLoad hrst hph hip (fun _ => hld) hdone,
      exec_ksRound (s := ipLoadEffect s) hrst hph hkd hdone hld, rfl⟩

end Sys2Proof.Machine
end

section
/-! Proofs about any clock edge: the invariant of R37 (spec/10_state.md), and which steps change a flag or a data
register (R30, R41). -/

namespace Sys2Proof.Machine

/-! ### The invariant of R37 -/

/-- Settles O53: each of the steps an edge can take keeps the invariant, and so do two of them. -/
theorem everyEdgeKeepsTheInvariant : Obligations.EveryEdgeKeepsTheInvariant := by
  unfold Obligations.EveryEdgeKeepsTheInvariant
  exact fun s t hs h => hs.step h

/-- Settles O54: the invariant holds after a `RESET` and every edge keeps it. -/
theorem reachableStatesAreConsistent : Obligations.ReachableStatesAreConsistent := by
  unfold Obligations.ReachableStatesAreConsistent
  intro s hs
  have hc := consistent_of_reachable hs
  exact ⟨hc.prepFlags, hc.joinedResults, hc.roundsSoFar, hc.busyNotDone, hc.resultWhenDone⟩

/-- The state after power-up's reset: `IDLE`, with no key schedule begun and no result. -/
theorem consistent_reset : Consistent State.reset :=
  consistent_of_idle rfl (fun h => absurd h Bool.false_ne_true) (fun h => absurd h Bool.false_ne_true)
    (fun h => absurd h Bool.false_ne_true)

/-- Settles O52: the control state is read off, and in `IDLE` with all flags 0 the invariant asks nothing. -/
theorem resetStateMeetsTheInvariant : Obligations.ResetStateMeetsTheInvariant := by
  unfold Obligations.ResetStateMeetsTheInvariant
  exact ⟨⟨rfl, rfl, rfl, rfl, rfl, rfl, rfl, rfl, rfl, rfl⟩, consistent_reset.with_hostInputs_schedule⟩

/-! ### Flags and data registers at an edge (R30, R41) -/

/-- Settles O50: the effect of each list of steps an edge can take, read at the four flags. -/
theorem flagsSetAndCleared : Obligations.FlagsSetAndCleared := by
  unfold Obligations.FlagsSetAndCleared
  intro s t h
  obtain ⟨hes, rfl⟩ := step_cases h
  generalize stepsTaken s = is at hes ⊢
  cases hes <;> simp

/-- A pass writes the entry `KI` names and no other. -/
theorem readRk_ksRoundEffect_of_ne {s : State} {j : Fin 16} (h : s.ki.toNat ≠ j.val) :
    readRk (ksRoundEffect s).rk j = readRk s.rk j := by
  rw [readRk_ksRoundEffect, if_neg (Ne.symm h)]

/-- Settles O51: the effect of each list of steps an edge can take, read at the data registers. -/
theorem dataRegistersWrittenOnlyByTheirSteps : Obligations.DataRegistersWrittenOnlyByTheirSteps := by
  unfold Obligations.DataRegistersWrittenOnlyByTheirSteps
  intro s t h hreset
  obtain ⟨hes, rfl⟩ := step_cases h
  generalize stepsTaken s = is at hes hreset ⊢
  cases hes
  case reset => simp at hreset
  case ksRound | ksRound_ipLoad =>
    simp only [takeSteps_cons, takeSteps_nil, stepEffect, State.endEdge_rk, ipLoadEffect_rk]
    refine ⟨by simp, by simp, fun j hj => readRk_ksRoundEffect_of_ne fun hki => hj ⟨by simp, hki⟩, by simp, by simp,
      by simp, by simp⟩
  all_goals simp

/-- With `KS_DONE = 1` no pass is made, so the round keys stay until `START` or `RESET` (R125). -/
theorem rk_of_step {s t : State} (hkd : s.ksDone = true) (h : step s = .next t) (hreset : .reset ∉ stepsTaken s) :
    t.rk = s.rk := by
  obtain ⟨-, -, hrk, -⟩ := dataRegistersWrittenOnlyByTheirSteps s t h hreset
  exact eq_of_readRk_eq fun j => hrk j fun ⟨hround, _⟩ => (ks_not_mem_stepsTaken hkd).2 hround

/-- Settles O55: what the invariant says of a finished key schedule, and that nothing writes the round keys after it. -/
theorem keyScheduleGuarantee : Obligations.KeyScheduleGuarantee := by
  unfold Obligations.KeyScheduleGuarantee
  exact ⟨fun s hs hkd => (consistent_of_reachable hs).keysWhenDone hkd, fun key key' h => deriveRoundKeys_congr h,
    fun s t _ hkd h _ hreset => rk_of_step hkd h hreset⟩

end Sys2Proof.Machine
end

section
/-! Proofs about the functions as operations (spec/00_scope.md rules R16, R17): their results, and that no step reads
`fnOut` (log 7). -/

namespace Sys2Proof.Machine

/-! ### A function executed by itself (R17) -/

/-- What a function returns for well-formed operands; a step returns nothing. -/
def fnResult : Instr → List Bits
  | .permute _ v t => [⟨t.length, permute v t⟩]
  | .rotl n v k => [⟨n, rotl v k⟩]
  | .xor n a b => [⟨n, xorBits a b⟩]
  | .chunk _ v n => chunk v n
  | .split h v => [⟨h, (split h v).1⟩, ⟨h, (split h v).2⟩]
  | .concat p q a b => [⟨p + q, concat a b⟩]
  | .hexbits cs => [⟨4 * cs.length, hexBits cs⟩]
  | .asciibits cs => [⟨8 * cs.length, asciiBits cs⟩]
  | .ksInit key => [⟨28, (ksInit key).1⟩, ⟨28, (ksInit key).2⟩]
  | .ksNext c d i => [⟨28, (ksNext c d i).1⟩, ⟨28, (ksNext c d i).2.1⟩, ⟨48, (ksNext c d i).2.2⟩]
  | .deriveRoundKeys key => (deriveRoundKeys key).toList.map fun k => ⟨48, k⟩
  | .sbox b ch => [⟨4, sbox b ch⟩]
  | .subst v => [⟨32, subst v⟩]
  | .expand r => [⟨48, expand r⟩]
  | .feistelF r k => [⟨32, feistelF r k⟩]
  | .roundFn l r k => [⟨32, (roundFn l r k).1⟩, ⟨32, (roundFn l r k).2⟩]
  | .ipFn b => [⟨64, ipFn b⟩]
  | .fpFn b => [⟨64, fpFn b⟩]
  | .encryptBlock pt key => [⟨64, encryptBlock pt key⟩]
  | _ => []

/-- The name under which a function refuses operands that are not well-formed (log 15); the last row is `ASCIIBITS`'s,
and stands for the operations without a precondition, which never refuse. -/
def fnRefusal : Instr → Refusal
  | .permute _ _ _ => .invalidTableEntry
  | .rotl _ _ _ => .emptyVector
  | .chunk _ _ _ => .zeroChunkSize
  | .hexbits _ => .notHexDigit
  | _ => .notByteCharacter

/-- Every function is one `performFn`; those without a precondition are always well-formed. -/
theorem exec_eq_performFn {i : Instr} (hi : i.agent = none) (s : State) :
    exec i s = performFn i.wellFormed (fnRefusal i) (fnResult i) s := by
  cases i
  case reset | idle | start | ksLoad | ksRound | ipLoad | join | round | final => cases hi
  all_goals rfl

theorem agent_of_not_wellFormed {i : Instr} (h : i.wellFormed = false) : i.agent = none := by
  cases i
  case reset | idle | start | ksLoad | ksRound | ipLoad | join | round | final => cases h
  all_goals rfl

theorem exec_of_not_wellFormed {i : Instr} (h : i.wellFormed = false) (s : State) :
    exec i s = .refused (fnRefusal i) := by
  rw [exec_eq_performFn (agent_of_not_wellFormed h), h, performFn_refused]

/-- Settles O19: a function's result and its refusal are computed from its operands alone. -/
theorem functionsArePureAndTotal : Obligations.FunctionsArePureAndTotal := by
  unfold Obligations.FunctionsArePureAndTotal
  refine ⟨fun i hi hwf => ⟨fnResult i, fun s => ?_⟩,
    fun i h => ⟨agent_of_not_wellFormed h, fnRefusal i, exec_of_not_wellFormed h⟩, fun n v t s hbad => ?_⟩
  · rw [exec_eq_performFn hi, hwf, performFn_ok]
    rfl
  · refine exec_of_not_wellFormed (i := .permute n v t) ?_ s
    obtain ⟨e, he, hrange⟩ := hbad
    rw [Instr.wellFormed, ← Bool.not_eq_true, tableInRange_eq_true_iff]
    intro hall
    have := hall e he
    omega

/-! ### No step reads or writes `fnOut` -/

theorem stepEffect_withFnOut (i : Instr) (s : State) (out : List Bits) :
    stepEffect i (s.withFnOut out) = (stepEffect i s).withFnOut out := by
  cases i <;> rfl

theorem stepEffect_fnOut (i : Instr) (s : State) : (stepEffect i s).fnOut = s.fnOut := by
  cases i <;> rfl

theorem takeSteps_withFnOut (is : List Instr) (s : State) (out : List Bits) :
    takeSteps is (s.withFnOut out) = (takeSteps is s).withFnOut out := by
  induction is generalizing s with
  | nil => rfl
  | cons i is ih => rw [takeSteps_cons, stepEffect_withFnOut, ih, takeSteps_cons]

theorem takeSteps_fnOut (is : List Instr) (s : State) : (takeSteps is s).fnOut = s.fnOut := by
  induction is generalizing s with
  | nil => rfl
  | cons i is ih => rw [takeSteps_cons, ih, stepEffect_fnOut]

/-- Settles O20: what `SEL` enables and what each step writes are the same whatever `fnOut` holds. -/
theorem stepsIgnoreFunctionResults : Obligations.StepsIgnoreFunctionResults := by
  unfold Obligations.StepsIgnoreFunctionResults
  refine ⟨fun i s t out hi h => ?_, fun s t out h => ?_⟩
  · obtain ⟨hres, hen, rfl⟩ := (exec_next_iff hi s t).1 h
    exact ⟨stepEffect_fnOut i s,
      (exec_next_iff hi (s.withFnOut out) _).2 ⟨hres, hen, (stepEffect_withFnOut i s out).symm⟩⟩
  · have hres : s.reserved = false := reserved_eq_false_of_step h
    obtain ⟨-, rfl⟩ := step_cases h
    refine ⟨takeSteps_fnOut _ s, ?_⟩
    have htaken : stepsTaken (s.withFnOut out) = stepsTaken s := rfl
    have hstep := step_of_not_reserved (s := s.withFnOut out) hres
    rw [htaken, takeSteps_withFnOut] at hstep
    exact hstep

/-! ### The constant tables (R116) -/

/-- Settles O18: each check is decided on the tables as they stand. -/
theorem tablesPassStructuralChecks : Obligations.TablesPassStructuralChecks := by
  unfold Obligations.TablesPassStructuralChecks
  refine ⟨?_, ?_, ?_, ?_, ?_, ?_, ?_⟩ <;> decide

end Sys2Proof.Machine
end

section
/-! Proofs about `ASCIIBITS` and the two text forms of a vector (spec/30_encoding.md rules R77, R78; log 16). -/

namespace Sys2Proof.Machine

/-! ### `ASCIIBITS` (R77) -/

theorem getMsbD_asciiBits (cs : List Char) {k j : Nat} (hk : k < cs.length) (hj : j < 8) :
    (asciiBits cs).getMsbD (8 * k + j) = (BitVec.ofNat 8 cs[k].toNat).getMsbD j := by
  rw [asciiBits, getMsbD_fromPositions _ (length_flatMap_positions _ cs), getD_flatMap_positions _ cs hk hj]

/-- Settles O15: character `k` is the `k`-th group of eight positions; the example by evaluation. -/
theorem asciiBitsReadsCharacters : Obligations.AsciiBitsReadsCharacters := by
  unfold Obligations.AsciiBitsReadsCharacters
  refine ⟨fun cs s h => ⟨asciiBits cs, ?_, fun k hk j hj => getMsbD_asciiBits cs hk hj⟩, by decide +kernel⟩
  exact (performFn_next_iff _ _ _ s _).2 ⟨h, rfl⟩

/-! ### The two text forms (R78) -/

theorem isHexDigit_hexDigit : ∀ x < 16, isHexDigit (hexDigit x) = true := by decide

theorem hexValue_hexDigit : ∀ x < 16, hexValue (hexDigit x) = x := by decide

/-- The two hexadecimal digits of a byte, the high one first. -/
def hexPair (x : Nat) : List Char :=
  [hexDigit (x / 16), hexDigit (x % 16)]

theorem all_isHexDigit_hexPair {x : Nat} (hx : x < 256) : (hexPair x).all isHexDigit = true := by
  have hhigh : isHexDigit (hexDigit (x / 16)) = true := isHexDigit_hexDigit _ (by omega)
  have hlow : isHexDigit (hexDigit (x % 16)) = true := isHexDigit_hexDigit _ (by omega)
  simp [hexPair, hhigh, hlow]

/-- A byte's bits are those of its two digits. -/
theorem append_digits {x : Nat} (hx : x < 256) :
    BitVec.ofNat 4 (x / 16) ++ BitVec.ofNat 4 (x % 16) = BitVec.ofNat 8 x := by
  have hlow : x % 16 < 2 ^ 4 := by omega
  apply BitVec.eq_of_toNat_eq
  rw [BitVec.toNat_append, BitVec.toNat_ofNat, BitVec.toNat_ofNat, BitVec.toNat_ofNat, Nat.mod_eq_of_lt hlow,
    ← Nat.shiftLeft_add_eq_or_of_lt hlow, Nat.shiftLeft_eq]
  omega

theorem positions_hexPair {x : Nat} (hx : x < 256) :
    ((hexPair x).flatMap fun ch => positions (BitVec.ofNat 4 (hexValue ch))) = positions (BitVec.ofNat 8 x) := by
  rw [← append_digits hx, positions_append]
  simp [hexPair, hexValue_hexDigit (x / 16) (by omega), hexValue_hexDigit (x % 16) (by omega)]

/-- Vectors built from the same positions are the same, lengths included. -/
theorem bits_fromPositions_congr {m m' : Nat} {bs bs' : List Bool} (hm : m = m') (hbs : bs = bs') :
    (⟨m, fromPositions bs⟩ : Bits) = ⟨m', fromPositions bs'⟩ := by
  subst hm hbs
  rfl

/-- Settles O16: byte by byte, the two digits supply the eight positions of the character. -/
theorem textFormsAgree : Obligations.TextFormsAgree := by
  unfold Obligations.TextFormsAgree
  intro cs hcs
  have hbyte : ∀ ch ∈ cs, ch.toNat < 256 := fun ch hch => of_decide_eq_true (List.all_eq_true.1 hcs ch hch)
  have hpositions :
      ((cs.flatMap fun ch => hexPair ch.toNat).flatMap fun ch => positions (BitVec.ofNat 4 (hexValue ch))) =
        cs.flatMap fun ch => positions (BitVec.ofNat 8 ch.toNat) := by
    rw [List.flatMap_assoc]
    exact List.flatMap_congr fun ch hch => positions_hexPair (hbyte ch hch)
  refine ⟨?_, bits_fromPositions_congr ?_ ?_⟩
  · rw [List.all_flatMap, List.all_eq_true]
    exact fun ch hch => all_isHexDigit_hexPair (hbyte ch hch)
  · rw [← length_flatMap_positions (fun ch : Char => BitVec.ofNat 4 (hexValue ch)),
      ← length_flatMap_positions (fun ch : Char => BitVec.ofNat 8 ch.toNat)]
    exact congrArg _ hpositions
  · exact hpositions

end Sys2Proof.Machine
end

section
/-! Proofs of the laws the spec infers of its functions: `XOR` and complement through each of them, the constant keys
and vectors, and the inverses (spec/40_bitvector.md R96; R122, R131, R142, R153, R155; spec/95_test_vectors.md V11). -/

namespace Sys2Proof.Machine

/-! ### `PERMUTE` and `XOR` (R96) -/

theorem permute_xorBits {n m : Nat} (a b : BitVec n) {t : List Nat} (ht : t.length = m) :
    (permute (xorBits a b) t : BitVec m) = xorBits (permute a t) (permute b t) := by
  refine BitVec.eq_of_getMsbD_eq fun i hi => ?_
  have hit : i < t.length := ht ▸ hi
  simp only [getMsbD_xorBits, getMsbD_permute _ ht hit]

/-! ### The round keys of the constant keys (R122) -/

theorem totalShift_eq : ∀ i : Fin 16,
    totalShift (i.val + 1) = [1, 2, 4, 6, 8, 10, 12, 14, 15, 17, 19, 21, 23, 25, 27, 28].getD i.val 0 := by
  decide

theorem roundKeys_constant : ∀ i : Fin 16, readRk (deriveRoundKeys 0) i = 0 ∧
    readRk (deriveRoundKeys (BitVec.allOnes 64)) i = BitVec.allOnes 48 := by
  decide +kernel

/-! ### The rounds can be undone (R142, R155) -/

theorem roundFn_inverse {l r l' r' : Half} {k : RoundKey} (h : roundFn l r k = (l', r')) :
    (l, r) = (xorBits r' (feistelF l' k), l') := by
  obtain ⟨rfl, rfl⟩ := Prod.mk.inj h
  rw [xorBits_xorBits_self]

theorem roundFn_injective {l r m q : Half} {k : RoundKey} (h : roundFn l r k = roundFn m q k) : (l, r) = (m, q) :=
  (roundFn_inverse h).trans (roundFn_inverse rfl).symm

theorem feistelRounds_injective (rk : RoundKeys) {l r m q : Half} {n : Nat}
    (h : feistelRounds rk l r n = feistelRounds rk m q n) : (l, r) = (m, q) := by
  induction n with
  | zero => exact h
  | succ n ih => exact ih (roundFn_injective h)

theorem finish_injective {l r m q : Half} (h : finish l r = finish m q) : (l, r) = (m, q) := by
  have hhalves := congrArg (split 32) (fpFn_bijective.1 h)
  rw [split_concat, split_concat] at hhalves
  obtain ⟨hr, hl⟩ := Prod.mk.inj hhalves
  rw [hl, hr]

theorem eq_of_positions_eq {n : Nat} {v w : BitVec n} (h : positions v = positions w) : v = w := by
  rw [← fromPositions_positions v, h, fromPositions_positions]

theorem split_injective {h : Nat} {v w : BitVec (2 * h)} (heq : split h v = split h w) : v = w :=
  eq_of_positions_eq (by rw [← positions_split v, heq, positions_split])

theorem encryptBlock_injective (key : Block) : Function.Injective fun pt => encryptBlock pt key := by
  intro pt pt' h
  have hhalves := feistelRounds_injective _ (finish_injective h)
  have hip : ipFn pt = ipFn pt' := split_injective (h := 32) hhalves
  rw [← fpFn_ipFn pt, hip, fpFn_ipFn]

/-- Settles O31: the laws one by one; on the finitely many blocks an injective cipher is a bijection. -/
theorem lawsTheSpecInfersOfTheFunctions : Obligations.LawsTheSpecInfersOfTheFunctions := by
  unfold Obligations.LawsTheSpecInfersOfTheFunctions
  refine ⟨fun n a b t => permute_xorBits a b rfl, fun key i => ?_, keyPasses_sixteen_halves, roundKeys_constant,
    by decide +kernel, fun l r l' r' k h => roundFn_inverse h, fun b => ⟨fpFn_ipFn b, ipFn_fpFn b⟩,
    fun key => Finite.injective_iff_bijective.1 (encryptBlock_injective key)⟩
  rw [← totalShift_eq i]
  exact keyPasses_halves key (i.val + 1)

/-! ### Complements (V11) -/

theorem permute_not {n m : Nat} (v : BitVec n) {t : List Nat} (ht : t.length = m) (hrange : tableInRange n t = true) :
    (permute (~~~v) t : BitVec m) = ~~~(permute v t) := by
  refine BitVec.eq_of_getMsbD_eq fun i hi => ?_
  have hit : i < t.length := ht ▸ hi
  have hentry : t[i] - 1 < n := by
    have := (tableInRange_eq_true_iff n t).1 hrange _ (List.getElem_mem hit)
    omega
  rw [BitVec.getMsbD_not, getMsbD_permute _ ht hit, getMsbD_permute _ ht hit, BitVec.getMsbD_not,
    decide_eq_true hentry, decide_eq_true hi]

theorem split_not {n h : Nat} (v : BitVec n) (hn : h + h ≤ n) :
    split h (~~~v) = (~~~(split h v).1, ~~~(split h v).2) := by
  refine Prod.ext (BitVec.eq_of_getMsbD_eq fun i hi => ?_) (BitVec.eq_of_getMsbD_eq fun i hi => ?_)
  · simp [getMsbD_split_fst _ hn hi, hi, show i < n by omega]
  · simp [getMsbD_split_snd _ hn hi, hi, show h + i < n by omega]

theorem rotl_not {n : Nat} (v : BitVec n) (k : Nat) : rotl (~~~v) k = ~~~(rotl v k) := by
  refine BitVec.eq_of_getMsbD_eq fun i hi => ?_
  have hmod : (i + k) % n < n := Nat.mod_lt _ (Nat.zero_lt_of_lt hi)
  simp [getMsbD_rotl _ k hi, hi, hmod]

theorem xorBits_not_left {n : Nat} (a b : BitVec n) : xorBits (~~~a) b = ~~~(xorBits a b) :=
  BitVec.not_xor_left.symm

theorem xorBits_not_not {n : Nat} (a b : BitVec n) : xorBits (~~~a) (~~~b) = xorBits a b := by
  rw [xorBits_not_left, xorBits, ← BitVec.not_xor_right, BitVec.not_not, xorBits]

theorem ipFn_not (b : Block) : ipFn (~~~b) = ~~~(ipFn b) := permute_not b rfl (by decide)

theorem fpFn_not (b : Block) : fpFn (~~~b) = ~~~(fpFn b) := permute_not b rfl (by decide)

theorem expand_not (r : Half) : expand (~~~r) = ~~~(expand r) := permute_not r rfl (by decide)

theorem ksInit_not (key : Block) : ksInit (~~~key) = (~~~(ksInit key).1, ~~~(ksInit key).2) := by
  have hpc1 : (permute (~~~key) Config.pc1 : BitVec 56) = ~~~(permute key Config.pc1) := permute_not key rfl (by decide)
  rw [ksInit, ksInit, hpc1, split_not _ (by decide)]

theorem ksNext_not (c d : HalfKey) (i : Fin 16) :
    ksNext (~~~c) (~~~d) i = (~~~(ksNext c d i).1, ~~~(ksNext c d i).2.1, ~~~(ksNext c d i).2.2) := by
  have hpc2 : ∀ v : BitVec 56, (permute (~~~v) Config.pc2 : RoundKey) = ~~~(permute v Config.pc2) := fun v =>
    permute_not v rfl (by decide)
  simp only [ksNext, rotl_not, concat, ← BitVec.not_append]
  rw [hpc2]

theorem keyPasses_not (key : Block) (n : Nat) :
    (keyPasses (~~~key) n).1 = ~~~(keyPasses key n).1 ∧ (keyPasses (~~~key) n).2.1 = ~~~(keyPasses key n).2.1 := by
  obtain ⟨hc, hd⟩ := keyPasses_halves key n
  obtain ⟨hc', hd'⟩ := keyPasses_halves (~~~key) n
  rw [hc, hd, hc', hd', ksInit_not, rotl_not, rotl_not]
  exact ⟨rfl, rfl⟩

theorem readRk_deriveRoundKeys_not (key : Block) (i : Fin 16) :
    readRk (deriveRoundKeys (~~~key)) i = ~~~(readRk (deriveRoundKeys key) i) := by
  have hkey : ∀ k, readRk (deriveRoundKeys k) i = (ksNext (keyPasses k i.val).1 (keyPasses k i.val).2.1 i).2.2 :=
    fun k => by rw [ksNext_keyPasses]
  obtain ⟨hc, hd⟩ := keyPasses_not key i.val
  rw [hkey, hkey, hc, hd, ksNext_not]

/-- The two complements cancel before the S-boxes. -/
theorem feistelF_not (r : Half) (k : RoundKey) : feistelF (~~~r) (~~~k) = feistelF r k :=
  feistelF_congr (by rw [expand_not, xorBits_not_not])

theorem roundFn_not (l r : Half) (k : RoundKey) :
    roundFn (~~~l) (~~~r) (~~~k) = (~~~(roundFn l r k).1, ~~~(roundFn l r k).2) := by
  rw [roundFn_eq, roundFn_eq, feistelF_not, xorBits_not_left]

theorem feistelRounds_not (key : Block) (l r : Half) (n : Nat) :
    feistelRounds (deriveRoundKeys (~~~key)) (~~~l) (~~~r) n =
      (~~~(feistelRounds (deriveRoundKeys key) l r n).1, ~~~(feistelRounds (deriveRoundKeys key) l r n).2) := by
  induction n with
  | zero => rfl
  | succ n ih => rw [feistelRounds, feistelRounds, ih, readRk_deriveRoundKeys_not, roundFn_not]

theorem finish_not (l r : Half) : finish (~~~l) (~~~r) = ~~~(finish l r) := by
  rw [finish_eq, finish_eq, ← fpFn_not, BitVec.not_append]

/-- Settles O33: complementing both inputs complements the round keys and, through every round, both halves. -/
theorem complementedInputsComplementTheCiphertext : Obligations.ComplementedInputsComplementTheCiphertext := by
  unfold Obligations.ComplementedInputsComplementTheCiphertext
  intro pt key
  rw [encryptBlock, encryptBlock, ipFn_not, split_not _ (by decide), feistelRounds_not, finish_not]

end Sys2Proof.Machine
end

section
/-! Proofs about whole runs (spec/46_driver.md rule R157; spec/20_memory.md rule R63): the control state tells how many
steps of a run have been taken, so a run comes to `JOIN` and to its end under every schedule; how many edges it needs
is the number of steps less the number of edges that two steps share. -/

namespace Sys2Proof.Machine

/-! ### How far a run has come -/

/-- How many of the 37 steps of a run have been taken, told by the control state; in `IDLE` all of them. -/
def State.progress (s : State) : Nat :=
  match s.ph with
  | .prep => 1 + s.ksLd.toNat + s.ki.toNat + s.ksDone.toNat + s.ipDone.toNat
  | .rounds => 20 + s.ri.toNat
  | .final => 36
  | .idle => 37

section Progress
variable {s : State}

theorem progress_of_prep (h : s.ph = .prep) :
    s.progress = 1 + s.ksLd.toNat + s.ki.toNat + s.ksDone.toNat + s.ipDone.toNat := by
  simp [State.progress, h]

theorem progress_of_rounds (h : s.ph = .rounds) : s.progress = 20 + s.ri.toNat := by
  simp [State.progress, h]

theorem progress_of_final (h : s.ph = .final) : s.progress = 36 := by
  simp [State.progress, h]

theorem progress_of_idle (h : s.ph = .idle) : s.progress = 37 := by
  simp [State.progress, h]

/-- `PREP` is the first nineteen steps; the nineteenth completes the work of both agents. -/
theorem progress_eq_nineteen_iff :
    s.progress = 19 ↔
      s.ph = .prep ∧ s.ksLd = true ∧ s.ki = 15 ∧ s.ksDone = true ∧ s.ipDone = true := by
  have hki : s.ki.toNat < 16 := s.ki.isLt
  have hki15 : s.ki = 15 ↔ s.ki.toNat = 15 := BitVec.toNat_inj.symm
  cases hph : s.ph with
  | prep =>
    rw [progress_of_prep hph, hki15]
    cases s.ksLd <;> cases s.ksDone <;> cases s.ipDone <;> simp <;> omega
  | rounds => rw [progress_of_rounds hph]; simp; omega
  | final => simp [progress_of_final hph]
  | idle => simp [progress_of_idle hph]

theorem progress_eq_thirtySeven_iff : s.progress = 37 ↔ s.ph = .idle := by
  have hki : s.ki.toNat < 16 := s.ki.isLt
  have hri : s.ri.toNat < 16 := s.ri.isLt
  cases hph : s.ph with
  | prep =>
    have hld := s.ksLd.toNat_le
    have hkd := s.ksDone.toNat_le
    have hip := s.ipDone.toNat_le
    rw [progress_of_prep hph]; simp; omega
  | rounds => rw [progress_of_rounds hph]; simp; omega
  | final => simp [progress_of_final hph]
  | idle => simp [progress_of_idle hph]

end Progress

/-- A busy edge moves the run on by the steps it takes. -/
theorem progress_of_step {s t : State} (hs : Consistent s) (h : step s = .next t) (hrst : s.ports.rst = false)
    (hph : s.ph ≠ .idle) : t.progress = s.progress + (stepsTaken s).length := by
  obtain ⟨hes, rfl⟩ := step_cases h
  generalize stepsTaken s = is at hes ⊢
  cases hes
  case reset h => exact absurd (hrst.symm.trans h) Bool.false_ne_true
  case idle h _ | start h _ => exact absurd h hph
  case ksLoad | ksLoad_ipLoad => simp +arith [State.progress, *]
  case ksRound | ksRound_ipLoad =>
    by_cases h15 : s.ki = 15#4
    · simp +arith [State.progress, *]
    · simp +arith [State.progress, *, toNat_countUp_of_ne h15]
  case join hkd _ =>
    obtain ⟨-, hki, -⟩ := hs.keysWhenDone hkd
    simp [State.progress, *]
  case round =>
    by_cases h15 : s.ri = 15#4
    · simp [State.progress, *]
    · simp +arith [State.progress, *, toNat_countUp_of_ne h15]
  all_goals simp [State.progress, *]

/-- Whether a `KS` step and `IP_LOAD` share an edge. -/
def sharesEdge (e : List Instr) : Bool :=
  decide (.ipLoad ∈ e ∧ (.ksLoad ∈ e ∨ .ksRound ∈ e))

theorem sharesEdge_iff (e : List Instr) : sharesEdge e = true ↔ .ipLoad ∈ e ∧ (.ksLoad ∈ e ∨ .ksRound ∈ e) := by
  simp [sharesEdge]

/-- An edge takes one step, or two that share it. -/
theorem EdgeSteps.length_eq {s : State} {is : List Instr} (h : EdgeSteps s is) :
    is.length = 1 + (sharesEdge is).toNat := by
  cases h <;> rfl

/-- Two steps share an edge only while neither agent has finished. -/
theorem EdgeSteps.progress_of_sharesEdge {s : State} {is : List Instr} (h : EdgeSteps s is)
    (hsh : sharesEdge is = true) : s.progress ≤ 17 := by
  have hki : s.ki.toNat < 16 := s.ki.isLt
  cases h
  case ksLoad_ipLoad _ hph _ _ _ _ => simp [State.progress, *]; omega
  case ksRound_ipLoad => simp [State.progress, *]; omega
  all_goals exact absurd hsh (by decide)

/-- An edge uses up one port sample and counts on (log 1, 6). -/
theorem time_of_step {s t : State} (h : step s = .next t) :
    t.hostInputs = s.hostInputs.tail ∧ t.edge = s.edge + 1 := by
  obtain ⟨hes, rfl⟩ := step_cases h
  generalize stepsTaken s = is at hes ⊢
  cases hes <;> exact ⟨rfl, rfl⟩

theorem reset_not_mem_stepsTaken {s : State} (hrst : s.ports.rst = false) : Instr.reset ∉ stepsTaken s := fun h =>
  Bool.false_ne_true (hrst.symm.trans ((enables_reset_iff s).1 (enables_of_mem_stepsTaken h)))

theorem rst_of_forall {s : State} (hlen : 0 < s.hostInputs.length) (hrst : ∀ q ∈ s.hostInputs, q.rst = false) :
    s.ports.rst = false := by
  obtain ⟨q, qs, hq⟩ := List.exists_cons_of_length_pos hlen
  rw [ports_of_hostInputs hq]
  exact hrst q (by simp [hq])

/-- A busy edge of a consistent machine completes, and does not step over a point of the run from `JOIN` on. -/
theorem exists_step_of_progress_lt {goal : Nat} (hlow : 19 ≤ goal) (hhigh : goal ≤ 37) {s : State} (hs : Consistent s)
    (hlt : s.progress < goal) (hrst : s.ports.rst = false) :
    ∃ t, step s = .next t ∧ s.progress < t.progress ∧ t.progress ≤ goal ∧
      t.progress = s.progress + (stepsTaken s).length ∧ Instr.start ∉ stepsTaken s ∧ Instr.reset ∉ stepsTaken s := by
  have hph : s.ph ≠ .idle := fun h => by rw [progress_of_idle h] at hlt; omega
  have h := step_of_not_reserved hs.reserved_eq_false
  have hprogress := progress_of_step hs h hrst hph
  obtain ⟨hes, -⟩ := step_cases h
  have hlength := hes.length_eq
  have hroom : s.progress + (stepsTaken s).length ≤ goal := by
    cases hsh : sharesEdge (stepsTaken s) with
    | false => rw [hlength, hsh]; exact hlt
    | true =>
      have := hes.progress_of_sharesEdge hsh
      rw [hlength, hsh, Bool.toNat_true]
      omega
  exact ⟨_, h, by omega, by omega, hprogress, start_not_mem_stepsTaken hph, reset_not_mem_stepsTaken hrst⟩

/-- Under every schedule a consistent machine comes to each point of its run from `JOIN` on. -/
theorem run_to_progress {goal : Nat} (hlow : 19 ≤ goal) (hhigh : goal ≤ 37) {s : State} (hs : Consistent s)
    (hle : s.progress ≤ goal) (hlen : goal - s.progress ≤ s.hostInputs.length)
    (hrst : ∀ q ∈ s.hostInputs, q.rst = false) :
    ∃ (n : Nat) (t : State), Host.Core.run core n s = .next t ∧ t.progress = goal ∧
      s.progress + (trace n s).flatten.length = goal ∧
      ∀ e ∈ trace n s, Instr.start ∉ e ∧ Instr.reset ∉ e := by
  induction hm : goal - s.progress using Nat.strong_induction_on generalizing s with
  | _ m ih =>
  obtain heq | hlt := Nat.eq_or_lt_of_le hle
  · exact ⟨0, s, rfl, heq, by simpa [trace] using heq, by simp [trace]⟩
  · obtain ⟨t, h, hmore, htle, hprogress, hstart, hreset⟩ :=
      exists_step_of_progress_lt hlow hhigh hs hlt (rst_of_forall (by omega) hrst)
    obtain ⟨hinputs, -⟩ := time_of_step h
    have htlen : goal - t.progress ≤ t.hostInputs.length := by rw [hinputs, List.length_tail]; omega
    have htrst : ∀ q ∈ t.hostInputs, q.rst = false := fun q hq =>
      hrst q (List.mem_of_mem_tail (by rwa [← hinputs]))
    obtain ⟨n, u, hrun, hu, hlength, hsteps⟩ := ih _ (by omega) (hs.step h) htle htlen htrst rfl
    refine ⟨n + 1, u, (run_succ_next_iff n s u).2 ⟨t, h, hrun⟩, hu, ?_, ?_⟩
    · rw [trace_succ h, List.flatten_cons, List.length_append, ← Nat.add_assoc, ← hprogress, hlength]
    · rw [trace_succ h]
      exact List.forall_mem_cons.2 ⟨⟨hstart, hreset⟩, hsteps⟩

/-! ### The edges of a run -/

theorem length_trace_of_run {n : Nat} {s t : State} (h : Host.Core.run core n s = .next t) :
    (trace n s).length = n := by
  induction n generalizing s with
  | zero => rfl
  | succ n ih =>
    obtain ⟨u, hu, hrest⟩ := (run_succ_next_iff n s t).1 h
    rw [trace_succ hu, List.length_cons, ih hrest]

theorem edgeSteps_of_mem_trace {n : Nat} {s t : State} (h : Host.Core.run core n s = .next t) {e : List Instr}
    (he : e ∈ trace n s) : ∃ u, EdgeSteps u e := by
  induction n generalizing s with
  | zero => simp [trace] at he
  | succ n ih =>
    obtain ⟨u, hu, hrest⟩ := (run_succ_next_iff n s t).1 h
    rw [trace_succ hu] at he
    obtain rfl | he := List.mem_cons.1 he
    · exact ⟨s, (step_cases hu).1⟩
    · exact ih hrest he

/-- The steps of some edges: one an edge, and one more for each shared edge. -/
theorem length_flatten_edges {es : List (List Instr)} (h : ∀ e ∈ es, ∃ u, EdgeSteps u e) :
    es.flatten.length = es.length + es.countP sharesEdge := by
  induction es with
  | nil => rfl
  | cons e es ih =>
    obtain ⟨⟨u, hu⟩, hrest⟩ := List.forall_mem_cons.1 h
    rw [List.flatten_cons, List.length_append, ih hrest, hu.length_eq, List.length_cons, List.countP_cons]
    cases sharesEdge e <;> simp <;> omega

/-- Each shared edge takes an `IP_LOAD`. -/
theorem countP_sharesEdge_le (es : List (List Instr)) : es.countP sharesEdge ≤ es.flatten.count .ipLoad := by
  induction es with
  | nil => exact le_rfl
  | cons e es ih =>
    rw [List.flatten_cons, List.count_append, List.countP_cons]
    cases hsh : sharesEdge e with
    | false => simp; omega
    | true =>
      have hpos : 0 < e.count .ipLoad := List.count_pos_iff.2 ((sharesEdge_iff e).1 hsh).1
      simp; omega

theorem EdgeSteps.eq_of_ipLoad_mem {s : State} {is : List Instr} (h : EdgeSteps s is) (hsh : sharesEdge is = false)
    (hip : .ipLoad ∈ is) : is = [.ipLoad] := by
  cases h
  case ipLoad => rfl
  case ksLoad_ipLoad | ksRound_ipLoad => exact absurd hsh (by decide)
  all_goals simp at hip

/-- A run of `m` steps, one of them `IP_LOAD`, takes `m` edges, or `m - 1` where `IP_LOAD` shares an edge. -/
theorem edges_of_run {n : Nat} {s t : State} (h : Host.Core.run core n s = .next t)
    (hip : (trace n s).flatten.count .ipLoad ≤ 1) :
    (∃ e ∈ trace n s, sharesEdge e = true) ∧ (trace n s).flatten.length = n + 1 ∨
      (∀ e ∈ trace n s, sharesEdge e = false) ∧ (trace n s).flatten.length = n := by
  have hlength := length_flatten_edges fun e he => edgeSteps_of_mem_trace h he
  rw [length_trace_of_run h] at hlength
  have hle := (countP_sharesEdge_le (trace n s)).trans hip
  obtain hzero | hpos := Nat.eq_zero_or_pos ((trace n s).countP sharesEdge)
  · exact .inr ⟨by simpa using List.countP_eq_zero.1 hzero, by omega⟩
  · exact .inl ⟨List.countP_pos_iff.1 hpos, by omega⟩

end Sys2Proof.Machine
end

section
/-! Proofs about a run from its request (spec/20_memory.md rule R63; spec/46_driver.md rule R157): what the steps taken
leave in the registers at `JOIN` and at the end. -/

namespace Sys2Proof.Machine

/-! ### From the request -/

/-- An idle machine, a request at its next edge, and no `RESET` at the edges listed after it. -/
structure Request (s : State) (p : Ports) (ps : List Ports) : Prop where
  idle : s.ph = .idle
  listed : s.hostInputs = p :: ps
  rst : p.rst = false
  start : p.start = true
  quiet : ∀ q ∈ ps, q.rst = false

/-- The state after the `START`. -/
def State.started (s : State) : State :=
  (startEffect s).endEdge [.start]

theorem step_of_start {s : State} (hrst : s.ports.rst = false) (hph : s.ph = .idle) (hst : s.ports.start = true) :
    step s = .next s.started :=
  step_of_enabledSteps (reserved_eq_false_of_idle hph) (enabledSteps_of_start hrst hph hst)

theorem consistent_started (s : State) : Consistent s.started :=
  (consistent_startEffect s).endEdge _

theorem Consistent.run {n : Nat} {s t : State} (hs : Consistent s) (h : Host.Core.run core n s = .next t) :
    Consistent t := by
  induction n generalizing s with
  | zero => cases h; exact hs
  | succ n ih =>
    obtain ⟨u, hu, hrest⟩ := (run_succ_next_iff n s t).1 h
    exact ih (hs.step hu) hrest

/-- The run so far, `n` edges from the request: the steps of its edges, in a machine that is still consistent. -/
structure RunSoFar (n : Nat) (s t : State) (steps : Nat) : Prop where
  inRun : InRun (n + 1) s t
  consistent : Consistent t
  progress : t.progress = steps
  length : (trace (n + 1) s).flatten.length = steps

namespace Request
variable {s : State} {p : Ports} {ps : List Ports} (hr : Request s p ps)
include hr

theorem ports : s.ports = p := ports_of_hostInputs hr.listed

theorem step_eq : step s = .next s.started :=
  step_of_start (hr.ports ▸ hr.rst) hr.idle (hr.ports ▸ hr.start)

theorem stepsTaken_eq : stepsTaken s = [.start] :=
  stepsTaken_of_start (hr.ports ▸ hr.rst) hr.idle (hr.ports ▸ hr.start)

/-- The run comes to each of its points from `JOIN` on, if as many edges are listed. -/
theorem run_to {goal : Nat} (hlow : 19 ≤ goal) (hhigh : goal ≤ 37) (hlen : goal ≤ ps.length + 1) :
    ∃ (n : Nat) (t : State), RunSoFar n s t goal := by
  have hinputs : s.started.hostInputs = ps := by simp [State.started, hr.listed]
  have hprogress : s.started.progress = 1 := rfl
  obtain ⟨n, t, hrun, ht, hlength, hsteps⟩ :=
    run_to_progress (s := s.started) hlow hhigh (consistent_started s) (by omega) (by rw [hinputs]; omega)
      (by rw [hinputs]; exact hr.quiet)
  have htrace : trace (n + 1) s = [.start] :: trace n s.started := by rw [trace_succ hr.step_eq, hr.stepsTaken_eq]
  refine ⟨n, t, ⟨hr.stepsTaken_eq, (run_succ_next_iff n s t).2 ⟨_, hr.step_eq, hrun⟩, ?_⟩,
    (consistent_started s).run hrun, ht, ?_⟩
  · rw [htrace]
    exact hsteps
  · rw [htrace, List.flatten_cons, List.length_append, ← hlength, hprogress]
    rfl

end Request

/-! ### What a run leaves as it is -/

/-- Running `n` edges uses up `n` port samples and counts on (log 1, 6). -/
theorem time_of_run {n : Nat} {s t : State} (h : Host.Core.run core n s = .next t) :
    t.hostInputs = s.hostInputs.drop n ∧ t.edge = s.edge + n := by
  induction n generalizing s with
  | zero => cases h; exact ⟨rfl, rfl⟩
  | succ n ih =>
    obtain ⟨u, hu, hrest⟩ := (run_succ_next_iff n s t).1 h
    obtain ⟨hinputs, hedge⟩ := time_of_step hu
    obtain ⟨hinputs', hedge'⟩ := ih hrest
    refine ⟨?_, by omega⟩
    rw [hinputs', hinputs, List.drop_tail]

/-- What the edges of a run after its `START` leave of the state `s` they begin in. -/
structure RunFrame (s u : State) : Prop where
  keyr : u.keyr = s.keyr
  dinr : u.dinr = s.dinr
  draws : u.draws = s.draws
  fnOut : u.fnOut = s.fnOut
  prep : u.ph = .prep → u.ri = s.ri ∧ u.dout = s.dout ∧ u.done = s.done

theorem RunFrame.edge {s u v : State} (hf : RunFrame s u) (h : step u = .next v) (hstart : .start ∉ stepsTaken u)
    (hreset : .reset ∉ stepsTaken u) : RunFrame s v := by
  obtain ⟨hkeyr, hdinr, hdraws, hfnOut, hprep⟩ := hf
  obtain ⟨hes, rfl⟩ := step_cases h
  generalize stepsTaken u = is at hes hstart hreset ⊢
  cases hes
  case start => simp at hstart
  case reset => simp at hreset
  case round hph _ _ _ _ => by_cases h15 : u.ri = 15#4 <;> constructor <;> simp [*]
  case ksLoad hph _ _ _ | ksRound hph _ _ _ | ipLoad hph _ _ | ksLoad_ipLoad hph _ _ _ _ | ksRound_ipLoad hph _ _ _ _ =>
    exact ⟨hkeyr, hdinr, hdraws, hfnOut, fun _ => hprep hph⟩
  all_goals constructor <;> simp [*]

theorem InRun.runFrame {n : Nat} {s u v : State} (h : InRun (n + 1) s u) (hv : step s = .next v) : RunFrame v u := by
  obtain ⟨-, hrun, hsteps⟩ := h
  obtain ⟨w, hw, hrest⟩ := (run_succ_next_iff n s u).1 hrun
  cases hv.symm.trans hw
  rw [trace_succ hv] at hsteps
  exact run_induction (P := fun _ u => RunFrame v u) (is := []) (fun hf h => hf.edge h)
    ⟨rfl, rfl, rfl, rfl, fun _ => ⟨rfl, rfl, rfl⟩⟩ hrest hsteps

/-! ### The edges of a run (R157) -/

theorem InRun.run_eq {n : Nat} {s t : State} (h : InRun n s t) : Host.Core.run core n s = .next t := by
  obtain ⟨-, hrun, -⟩ := h
  exact hrun

/-- A run takes as many edges as steps, or one less where `IP_LOAD` shares an edge with a `KS` step. -/
theorem InRun.edges {n : Nat} {s t : State} (h : InRun (n + 1) s t) :
    (∃ e ∈ trace (n + 1) s, sharesEdge e = true) ∧ (trace (n + 1) s).flatten.length = n + 2 ∨
      (∀ e ∈ trace (n + 1) s, sharesEdge e = false) ∧ (trace (n + 1) s).flatten.length = n + 1 :=
  edges_of_run h.run_eq (h.ipLoadCounts.loads ▸ t.ipDone.toNat_le)

/-! ### `JOIN` (R63) -/

/-- The machine that stands at its nineteenth step is at `JOIN`. -/
theorem enabledSet_of_progress {t : State} (hc : Consistent t) (hprogress : t.progress = 19)
    (hrst : t.ports.rst = false) : enabledSet t = .enabled [.join] := by
  obtain ⟨hph, hld, -, hkd, hip⟩ := progress_eq_nineteen_iff.1 hprogress
  obtain ⟨hdone, -⟩ := hc.busyNotDone
  exact enabledSet_of_exec_join (exec_join hrst hph hld hkd hip (hdone (by simp [hph])))

/-- What stands in the machine at `JOIN`, as the request alone gives it. -/
theorem eq_at_join {s t : State} (hc : Consistent t) (hprogress : t.progress = 19) (hf : RunFrame s.started t) :
    t = { s with
      keyr := s.ports.keyIn, dinr := s.ports.blockIn
      c := (ksInit s.ports.keyIn).1, d := (ksInit s.ports.keyIn).2, rk := deriveRoundKeys s.ports.keyIn
      l := (split 32 (ipFn s.ports.blockIn)).1, r := (split 32 (ipFn s.ports.blockIn)).2
      ph := .prep, ki := 15, ri := 0, ksLd := true, ksDone := true, ipDone := true, done := false
      hostInputs := t.hostInputs, schedule := t.schedule, edge := t.edge } := by
  obtain ⟨hph, hld, hki, hkd, hip⟩ := progress_eq_nineteen_iff.1 hprogress
  obtain ⟨hkeyr, hdinr, hdraws, hfnOut, hprep⟩ := hf
  obtain ⟨hri, hdout, hdone⟩ := hprep hph
  have hkey : t.keyr = s.ports.keyIn := hkeyr
  have hblock : t.dinr = s.ports.blockIn := hdinr
  obtain ⟨hrk, -, hcd⟩ := hkey ▸ hc.keysWhenDone hkd
  obtain ⟨hl, hr⟩ := Prod.mk.inj (hblock ▸ hc.blockWhenDone hph hip)
  obtain ⟨hc', hd⟩ := Prod.mk.inj hcd
  cases t
  exact (State.mk.injEq ..).mpr ⟨hkey, hblock, hc', hd, hrk, hl, hr, hdout, hph, hki, hri, hld, hkd, hip, hdone, rfl,
    rfl, rfl, hdraws, hfnOut⟩

/-- Settles O57: nineteen steps after the request both agents have finished, under every schedule; what they leave is
the invariant's, and `IP_LOAD` shared an edge or not. -/
theorem everyScheduleReachesTheSameJoin : Obligations.EveryScheduleReachesTheSameJoin := by
  unfold Obligations.EveryScheduleReachesTheSameJoin
  intro s p ps hph hs hrst hst hlen hquiet
  have hr : Request s p ps := ⟨hph, hs, hrst, hst, hquiet⟩
  obtain ⟨n, t, hrun, hc, hprogress, hlength⟩ := hr.run_to (goal := 19) (by omega) (by omega) (by omega)
  have hn : n + 1 = 18 ∨ n + 1 = 19 := by
    obtain ⟨-, h⟩ | ⟨-, h⟩ := hrun.edges <;> omega
  obtain ⟨hinputs, hedge⟩ := time_of_run hrun.run_eq
  rw [hs] at hinputs
  have htrst : t.ports.rst = false := by
    refine rst_of_forall (by rw [hinputs, List.length_drop, List.length_cons]; omega) fun q hq => hquiet q ?_
    exact List.mem_of_mem_drop (by rwa [hinputs, List.drop_succ_cons] at hq)
  refine ⟨n + 1, t, hn, hrun.run_eq, enabledSet_of_progress hc hprogress htrst, ?_⟩
  rw [← hinputs, ← hedge, ← hr.ports]
  exact eq_at_join hc hprogress (hrun.runFrame hr.step_eq)

/-! ### The whole run (R157) -/

/-- How often a run has taken the steps of `DRV` that a run takes once, told by the phase; and that `FINAL`, which
moves to `IDLE`, sets `DONE`. -/
structure DriverCounts (is : List Instr) (s : State) : Prop where
  start : is.count .start = 1
  join : is.count .join = if s.ph = .prep then 0 else 1
  final : is.count .final = if s.ph = .idle then 1 else 0
  done_of_idle : s.ph = .idle → s.done = true

theorem driverCounts_start (s t : State) (hs : stepsTaken s = [.start]) (h : step s = .next t) :
    DriverCounts [.start] t := by
  obtain ⟨-, rfl⟩ := step_cases h
  rw [hs]
  constructor <;> simp

theorem DriverCounts.edge {is : List Instr} {s t : State} (hc : DriverCounts is s) (h : step s = .next t)
    (hstart : .start ∉ stepsTaken s) (hreset : .reset ∉ stepsTaken s) : DriverCounts (is ++ stepsTaken s) t := by
  obtain ⟨hstarts, hjoins, hfinals, hdone⟩ := hc
  obtain ⟨hes, rfl⟩ := step_cases h
  generalize stepsTaken s = js at hes hstart hreset ⊢
  cases hes
  case start => simp at hstart
  case reset => simp at hreset
  case round => by_cases h15 : s.ri = 15#4 <;> constructor <;> simp [*]
  all_goals constructor <;> simp [*]

theorem InRun.driverCounts {k : Nat} {s u : State} (h : InRun (k + 1) s u) :
    DriverCounts (trace (k + 1) s).flatten u :=
  h.induction driverCounts_start fun hc => hc.edge

/-- How often a whole run takes each step (R157). -/
structure WholeRunCounts (is : List Instr) : Prop where
  start : is.count .start = 1
  ksLoad : is.count .ksLoad = 1
  ksRound : is.count .ksRound = 16
  ipLoad : is.count .ipLoad = 1
  join : is.count .join = 1
  round : is.count .round = 16
  final : is.count .final = 1

/-- A run that is back in `IDLE` has taken its `FINAL`, which finds both agents finished. -/
theorem InRun.wholeRunCounts {k : Nat} {s u : State} (h : InRun (k + 1) s u) (hph : u.ph = .idle) :
    WholeRunCounts (trace (k + 1) s).flatten := by
  have hdrv := h.driverCounts
  have hfinal : (trace (k + 1) s).flatten.count .final = 1 := by rw [hdrv.final, if_pos hph]
  have hmem : .final ∈ (trace (k + 1) s).flatten := List.count_pos_iff.1 (by rw [hfinal]; exact Nat.one_pos)
  obtain ⟨hld, hkd⟩ := h.keyScheduleCounts.complete_of_final hmem
  have hip := h.ipLoadCounts.complete_of_final hmem
  refine ⟨hdrv.start, ?_, ?_, ?_, ?_, h.roundCounts.complete (.inr hph), hfinal⟩
  · rw [h.keyScheduleCounts.loads, hld]; rfl
  · rw [h.keyScheduleCounts.rounds, h.keyScheduleCounts.ki_of_done hkd, hkd]; rfl
  · rw [h.ipLoadCounts.loads, hip]; rfl
  · rw [hdrv.join, if_neg (by simp [hph])]

/-- Settles O58: the run comes to its 37th step, after which the invariant gives the result; each step is counted by
the control state it leaves, and only `IP_LOAD` can have shared an edge. -/
theorem runEncryptsTheSampledBlock : Obligations.RunEncryptsTheSampledBlock := by
  unfold Obligations.RunEncryptsTheSampledBlock
  intro s p ps hph hs hrst hst hlen hquiet
  have hr : Request s p ps := ⟨hph, hs, hrst, hst, hquiet⟩
  obtain ⟨n, t, hrun, hc, hprogress, hlength⟩ := hr.run_to (goal := 37) (by omega) (by omega) (by omega)
  have htph : t.ph = .idle := progress_eq_thirtySeven_iff.1 hprogress
  have hdone : t.done = true := hrun.driverCounts.done_of_idle htph
  have hf := hrun.runFrame hr.step_eq
  have hdout : t.dout = encryptBlock p.blockIn p.keyIn := by
    obtain ⟨-, hresult⟩ := hc.resultWhenDone hdone
    rw [hresult, hf.keyr, hf.dinr, ← hr.ports]
    rfl
  obtain ⟨hstart, hksLoad, hksRound, hipLoad, hjoin, hround, hfinal⟩ := hrun.wholeRunCounts htph
  refine ⟨n + 1, t, hrun.run_eq, hdone, htph, hdout, by rw [State.blockOut, if_pos hdone, hdout],
    length_trace_of_run hrun.run_eq, hlength, hstart, hksLoad, hksRound, hipLoad, hjoin, hround, hfinal, ?_⟩
  obtain ⟨⟨e, he, hsh⟩, hedges⟩ | ⟨hnone, hedges⟩ := hrun.edges
  · exact .inl ⟨⟨e, he, (sharesEdge_iff e).1 hsh⟩, by omega⟩
  · refine .inr ⟨fun e he hip => ?_, by omega⟩
    obtain ⟨u, hu⟩ := edgeSteps_of_mem_trace hrun.run_eq he
    exact hu.eq_of_ipLoad_mem (hnone e he) hip

end Sys2Proof.Machine
end

section
/-! Proof that runs are independent (spec/46_driver.md rule R170): what the data paths hold never reaches the control
state, and after a `START` the invariant makes the result a function of the sampled key and block. -/

namespace Sys2Proof.Machine

/-- The state without what an earlier run may have left: the halves, the round keys, the result and `fnOut`. -/
def State.control (s : State) : State :=
  { s with c := 0, d := 0, rk := Vector.replicate 16 0, l := 0, r := 0, dout := 0, fnOut := [] }

theorem stepsTaken_control (s : State) : stepsTaken s.control = stepsTaken s := rfl

theorem enabledSteps_control (s : State) : s.control.enabledSteps = s.enabledSteps := rfl

theorem reserved_control (s : State) : s.control.reserved = s.reserved := rfl

theorem endEdge_control (s : State) (is : List Instr) : (s.endEdge is).control = s.control.endEdge is := rfl

theorem stepEffect_control (i : Instr) (s : State) : (stepEffect i s).control = (stepEffect i s.control).control := by
  cases i <;> rfl

theorem takeSteps_control (is : List Instr) (s : State) :
    (takeSteps is s).control = (takeSteps is s.control).control := by
  induction is generalizing s with
  | nil => rfl
  | cons i is ih => rw [takeSteps_cons, ih, stepEffect_control, ← ih, takeSteps_cons]

/-- The next control state is a function of the control state. -/
theorem step_control_congr {s₁ s₂ t₁ : State} (h : s₁.control = s₂.control) (h₁ : step s₁ = .next t₁) :
    ∃ t₂, step s₂ = .next t₂ ∧ t₁.control = t₂.control := by
  have hres : s₂.reserved = false := by
    rw [← reserved_control, ← h, reserved_control]
    exact reserved_eq_false_of_step h₁
  obtain ⟨-, rfl⟩ := step_cases h₁
  refine ⟨_, step_of_not_reserved hres, ?_⟩
  rw [endEdge_control, endEdge_control, takeSteps_control, takeSteps_control _ s₂, ← stepsTaken_control s₁,
    ← enabledSteps_control s₁, h]
  rfl

theorem run_control_congr {n : Nat} {s₁ s₂ t₁ : State} (h : s₁.control = s₂.control)
    (h₁ : Host.Core.run core n s₁ = .next t₁) :
    ∃ t₂, Host.Core.run core n s₂ = .next t₂ ∧ t₁.control = t₂.control := by
  induction n generalizing s₁ s₂ with
  | zero => cases h₁; exact ⟨s₂, rfl, h⟩
  | succ n ih =>
    obtain ⟨u₁, hu₁, hrest⟩ := (run_succ_next_iff n s₁ t₁).1 h₁
    obtain ⟨u₂, hu₂, hu⟩ := step_control_congr h hu₁
    obtain ⟨t₂, ht₂, ht⟩ := ih hu hrest
    exact ⟨t₂, (run_succ_next_iff n s₂ t₂).2 ⟨u₂, hu₂, ht₂⟩, ht⟩

/-- The output ports of a consistent state are a function of its control state. -/
theorem ports_of_control_eq {t₁ t₂ : State} (h : t₁.control = t₂.control) (h₁ : Consistent t₁) (h₂ : Consistent t₂) :
    t₂.busy = t₁.busy ∧ t₂.donePort = t₁.donePort ∧ t₂.blockOut = t₁.blockOut := by
  have hph : t₁.ph = t₂.ph := (congrArg State.ph h :)
  have hdone : t₁.done = t₂.done := (congrArg State.done h :)
  have hkeyr : t₁.keyr = t₂.keyr := (congrArg State.keyr h :)
  have hdinr : t₁.dinr = t₂.dinr := (congrArg State.dinr h :)
  refine ⟨by rw [State.busy, State.busy, hph], hdone.symm, ?_⟩
  rw [State.blockOut, State.blockOut, hdone]
  cases hd : t₂.done with
  | false => rfl
  | true =>
    obtain ⟨-, hresult₁⟩ := h₁.resultWhenDone (hdone.trans hd)
    obtain ⟨-, hresult₂⟩ := h₂.resultWhenDone hd
    rw [hresult₁, hresult₂, hkeyr, hdinr]

/-- Settles O59: after the `START` the two machines are consistent and have the same control state, which every edge
keeps, and which the output ports are a function of. -/
theorem runsAreIndependent : Obligations.RunsAreIndependent := by
  unfold Obligations.RunsAreIndependent
  intro s₁ s₂ t₁ n hph₁ hph₂ hinputs hschedule hedge hdraws hrst hst h₁
  have hports : s₂.ports = s₁.ports := by rw [State.ports, State.ports, hinputs, hedge]
  have hstep₁ : step s₁ = .next s₁.started := step_of_start hrst hph₁ hst
  have hstep₂ : step s₂ = .next s₂.started := step_of_start (hports ▸ hrst) hph₂ (hports ▸ hst)
  have hstarted : s₁.started.control = s₂.started.control := by
    simp [State.started, State.control, State.endEdge, startEffect, hinputs, hschedule, hedge, hdraws, hports]
  obtain ⟨u₁, hu₁, hrest₁⟩ := (run_succ_next_iff n s₁ t₁).1 h₁
  cases hstep₁.symm.trans hu₁
  obtain ⟨t₂, hrest₂, ht⟩ := run_control_congr hstarted hrest₁
  have hc₁ : Consistent t₁ := (consistent_started s₁).run hrest₁
  have hc₂ : Consistent t₂ := (consistent_started s₂).run hrest₂
  exact ⟨t₂, (run_succ_next_iff n s₂ t₂).2 ⟨_, hstep₂, hrest₂⟩, ports_of_control_eq ht hc₁ hc₂⟩

end Sys2Proof.Machine
end
